-- ==== Sys2Proof/Word.lean ====
section
/-! DEFINITION. The words of the block (00_scope.md R8) and the names its registers take: knob identities (10_state.md R23),
roles (R25), waveforms (43_synth_engine.md R208), message tags (R35), the Scanner's positions (R21) and bus frames
(30_encoding.md R95). -/

namespace Sys2Proof

abbrev Nibble := BitVec 4
abbrev Byte := BitVec 8
abbrev Word32 := BitVec 32
/-- A NoteBitmap: bit `i` is note `i`, 1 = pressed (00_scope.md R8). -/
abbrev NoteBitmap := BitVec 12
/-- A key mask: bit `i` is key `i`, 0 = pressed (00_scope.md R8). -/
abbrev KeyMask := BitVec 12
/-- A note or key index 0 to 11 (20_memory.md R66). -/
abbrev Note := Fin 12

/-- Knob identities 0 to 3 (10_state.md R23). -/
inductive KnobId where
  | vol | wave | oct | ms
  deriving DecidableEq, Repr

/-- One thing for each knob identity. -/
structure PerKnob (α : Type) where
  vol : α
  wave : α
  oct : α
  ms : α
  deriving DecidableEq, Repr

def PerKnob.get {α : Type} (p : PerKnob α) : KnobId → α
  | .vol => p.vol
  | .wave => p.wave
  | .oct => p.oct
  | .ms => p.ms

def PerKnob.set {α : Type} (p : PerKnob α) (k : KnobId) (a : α) : PerKnob α :=
  match k with
  | .vol => { p with vol := a }
  | .wave => { p with wave := a }
  | .oct => { p with oct := a }
  | .ms => { p with ms := a }

/-- "Process-wide state, `master` or `slave`" (10_state.md R25): slave is bit 0, master bit 1. -/
inductive Role where
  | slave | master
  deriving DecidableEq, Repr

/-- The waveform that the selector value names: 0 sawtooth, 1 sine (43_synth_engine.md R208). -/
inductive Waveform where
  | saw | sine
  deriving DecidableEq, Repr

/-- The message-type tag of RemoteState, coded 0, 1, 2 in this order (10_state.md R35); code 3 is never written and is left
out of the type, as 30_encoding.md R107(c) allows. -/
inductive Tag where
  | none | pressed | released
  deriving DecidableEq, Repr

/-- The Scanner's position in its cycle: the next micro-step (10_state.md R21). -/
inductive ScanPos where
  | idle | read | role | k0 | k1 | k2 | notes | merge | step | tx
  deriving DecidableEq, Repr

/-- A bus frame, byte 0 first (30_encoding.md R95). -/
structure Frame where
  b0 : Byte
  b1 : Byte
  b2 : Byte
  b3 : Byte
  b4 : Byte
  b5 : Byte
  b6 : Byte
  b7 : Byte
  deriving DecidableEq, Repr

end Sys2Proof
end

