-- ==== Sys2Proof/Config.lean ====
section
/-! DEFINITION. The parameters: the constants of 00_scope.md R6, the configuration of R7 with its constraints, and the values
the model starts from (R7's defaults; opaque constants where R7 gives no default, entries 6 and 7). -/

namespace Sys2Proof

/-- Where a knob's two code bits sit in the row words (20_memory.md R73): a row and two columns. -/
structure KnobWiring where
  row : Nat
  colA : Fin 4
  colB : Fin 4
  deriving DecidableEq, Repr

/-- The parameters of 00_scope.md R7. No step writes them; a statement for every state is a statement for every value of
them. -/
structure Config where
  /-- `PITCH[0..11]` -/
  pitch : Vector Word32 12
  /-- `LUT[0..127]`, signed -/
  lut : Vector Word32 128
  /-- `SINE_SAT` -/
  sineSat : Bool
  /-- `N_ROWS` -/
  nRows : Nat
  /-- `KNOB_ROW[k]`, `KNOB_COL_A[k]`, `KNOB_COL_B[k]` -/
  wiring : PerKnob KnobWiring
  /-- `HS_ROW` -/
  hsRow : Nat
  /-- `HS_COL` -/
  hsCol : Fin 4
  /-- `BUS_ID` -/
  busId : Nat
  /-- how many hexadecimal digits of a trace line hold an identifier (30_encoding.md R93, entry 7) -/
  busIdDigits : Nat
  /-- `TXQ_DEPTH` -/
  txqDepth : Nat
  /-- `RXQ_DEPTH` -/
  rxqDepth : Nat
  /-- `TX_SLOTS` -/
  txSlots : Nat
  /-- `T_SETTLE`, which has no function (92_eei_decisions.md D12) -/
  tSettle : Nat
  /-- `KNOB_RESET[k]`, signed 5 bits -/
  knobReset : PerKnob (BitVec 5)
  deriving DecidableEq, Repr

namespace Config

/-- The lower end of every knob's clamp range: `VOL_MIN`, `WAVE_MIN`, `OCT_MIN`, `MS_MIN` (00_scope.md R6). -/
def knobMin : KnobId → Int
  | .vol => 0
  | .wave => 0
  | .oct => 0
  | .ms => 0

/-- The upper end of every knob's clamp range: `VOL_MAX`, `WAVE_MAX`, `OCT_MAX`, `MS_MAX` (00_scope.md R6). -/
def knobMax : KnobId → Int
  | .vol => 8
  | .wave => 1
  | .oct => 8
  | .ms => 1

/-- `REF_OCTAVE` (00_scope.md R6). -/
def refOctave : Nat := 4
/-- `SAW_SHIFT_BASE` (00_scope.md R6). -/
def sawShiftBase : Nat := 8
/-- `SINE_SHIFT_BASE` (00_scope.md R6). -/
def sineShiftBase : Nat := 34
/-- `TYPE_PRESS` (00_scope.md R6). -/
def typePress : Byte := 80
/-- `TYPE_RELEASE` (00_scope.md R6). -/
def typeRelease : Byte := 82
/-- `N_KEY_ROWS` (00_scope.md R6). -/
def nKeyRows : Nat := 3
/-- `DAC_MID` (00_scope.md R7). -/
def dacMid : Int := 128

/-- The bit positions (row, column) of the knobs' code bits and of the handshake key (20_memory.md R73). -/
def specialBits (c : Config) : List (Nat × Fin 4) :=
  [(c.wiring.vol.row, c.wiring.vol.colA), (c.wiring.vol.row, c.wiring.vol.colB),
   (c.wiring.wave.row, c.wiring.wave.colA), (c.wiring.wave.row, c.wiring.wave.colB),
   (c.wiring.oct.row, c.wiring.oct.colA), (c.wiring.oct.row, c.wiring.oct.colB),
   (c.wiring.ms.row, c.wiring.ms.colA), (c.wiring.ms.row, c.wiring.ms.colB),
   (c.hsRow, c.hsCol)]

/-- The constraints that 00_scope.md R7, 10_state.md R41, R42 and 43_synth_engine.md R202, R204 put on the parameters.
`idFits` is the identifier's width (entry 7), `slaveReset` what the remark of 10_state.md R46 on `role` needs (entry 5). -/
structure Valid (c : Config) : Prop where
  pitchBound : ∀ i : Note, c.pitch[i].toNat < 2 ^ 28
  lutNonneg : ∀ i : Fin 128, 0 ≤ c.lut[i].toInt
  lutZero : c.lut[0] = 0
  keyRows : nKeyRows ≤ c.nRows
  bitsInRows : ∀ b ∈ c.specialBits, nKeyRows ≤ b.1 ∧ b.1 < c.nRows
  bitsDistinct : c.specialBits.Nodup
  idFits : c.busId < 16 ^ c.busIdDigits
  txqRoom : 1 ≤ c.txqDepth
  rxqRoom : 1 ≤ c.rxqDepth
  slots : 1 ≤ c.txSlots
  resetInRange : ∀ k : KnobId, knobMin k ≤ (c.knobReset.get k).toInt ∧ (c.knobReset.get k).toInt ≤ knobMax k
  slaveReset : c.knobReset.ms = 0

/-- The default PitchTable (43_synth_engine.md R201), C to B. -/
def pitchDefault : Vector Word32 12 :=
  #v[51076057, 54113197, 57330935, 60740010, 64351799, 68178356,
     72232452, 76527617, 81078186, 85899346, 91007187, 96418756]

/-- Rows 0 to 3 of the default WaveformLUT (43_synth_engine.md R203). -/
def lutRows0 : List Word32 :=
  [0, 52701887, 105372028, 157978697, 210490206, 262874923, 315101294, 367137860,
   418953276, 470516330, 521795963, 572761285, 623381597, 673626408, 723465451, 772868706,
   821806413, 870249095, 918167571, 965532978, 1012316784, 1058490807, 1104027236, 1148898640,
   1193077990, 1236538675, 1279254515, 1321199780, 1362349204, 1402677999, 1442161874, 1480777044]

/-- Rows 4 to 7 of the default WaveformLUT (43_synth_engine.md R203). -/
def lutRows4 : List Word32 :=
  [1518500249, 1555308767, 1591180425, 1626093615, 1660027308, 1692961061, 1724875039, 1755750016,
   1785567395, 1814309215, 1841958164, 1868497585, 1893911493, 1918184580, 1941302224, 1963250500,
   1984016188, 2003586778, 2021950483, 2039096240, 2055013722, 2069693341, 2083126253, 2095304369,
   2106220351, 2115867625, 2124240379, 2131333571, 2137142926, 2141664947, 2144896909, 2146836865]

/-- Rows 8 to 11 of the default WaveformLUT (43_synth_engine.md R203). -/
def lutRows8 : List Word32 :=
  [2147483647, 2146836865, 2144896909, 2141664947, 2137142926, 2131333571, 2124240379, 2115867625,
   2106220351, 2095304369, 2083126253, 2069693341, 2055013722, 2039096240, 2021950483, 2003586778,
   1984016188, 1963250500, 1941302224, 1918184580, 1893911493, 1868497585, 1841958164, 1814309215,
   1785567395, 1755750016, 1724875039, 1692961061, 1660027308, 1626093615, 1591180425, 1555308767]

/-- Rows 12 to 15 of the default WaveformLUT (43_synth_engine.md R203). -/
def lutRows12 : List Word32 :=
  [1518500249, 1480777044, 1442161874, 1402677999, 1362349204, 1321199780, 1279254515, 1236538675,
   1193077990, 1148898640, 1104027236, 1058490807, 1012316784, 965532978, 918167571, 870249095,
   821806413, 772868706, 723465451, 673626408, 623381597, 572761285, 521795963, 470516330,
   418953276, 367137860, 315101294, 262874923, 210490206, 157978697, 105372028, 52701887]

/-- The default WaveformLUT (43_synth_engine.md R203): `round((2^31 - 1) * sin(pi * i / 128))`. -/
def lutDefault : Vector Word32 128 :=
  ⟨(lutRows0 ++ lutRows4 ++ lutRows8 ++ lutRows12).toArray, rfl⟩

/-- The default matrix map of 20_memory.md R73: knobs 0 and 1 in row 4, knobs 2 and 3 in row 3. -/
def wiringDefault : PerKnob KnobWiring :=
  { vol := ⟨4, 2, 3⟩, wave := ⟨4, 0, 1⟩, oct := ⟨3, 2, 3⟩, ms := ⟨3, 0, 1⟩ }

/-- `BUS_ID`: 00_scope.md R7 gives no value, so nothing is known of it but that it fits the three digits of entry 7.
DESIGN CHOICE, safe (entry 6). -/
opaque busIdChoice : BitVec 12
/-- `TXQ_DEPTH - 1`: R7 gives no value. DESIGN CHOICE, safe (entry 6). -/
opaque txqDepthLess1 : Nat
/-- `RXQ_DEPTH - 1`: R7 gives no value. DESIGN CHOICE, safe (entry 6). -/
opaque rxqDepthLess1 : Nat
/-- `TX_SLOTS - 1`: R7 gives no value. DESIGN CHOICE, safe (entry 6). -/
opaque txSlotsLess1 : Nat
/-- `T_SETTLE`: R7 gives no value, and nothing reads it. DESIGN CHOICE, safe (entry 6). -/
opaque tSettleChoice : Nat

/-- The configuration State.reset holds: R7's defaults, and the opaque constants above where R7 has none. The width of three
hexadecimal digits for an identifier is that of 95_test_vectors.md (DESIGN CHOICE, unsafe, entry 7). -/
def initial : Config where
  pitch := pitchDefault
  lut := lutDefault
  sineSat := false
  nRows := 6
  wiring := wiringDefault
  hsRow := 5
  hsCol := 3
  busId := busIdChoice.toNat
  busIdDigits := 3
  txqDepth := txqDepthLess1 + 1
  rxqDepth := rxqDepthLess1 + 1
  txSlots := txSlotsLess1 + 1
  tSettle := tSettleChoice
  knobReset := ⟨0, 0, 0, 0⟩

end Config
end Sys2Proof
end

