-- ==== Sys2Proof/Syntax.lean ====
section
/-! DEFINITION. The operations: one constructor for each row of spec/opcode_table.json (30_encoding.md R92, R94, R95, R106,
R109), in the table's order, with the operands the table or the row's rule gives it. -/

namespace Sys2Proof

inductive Instr where
  /-- `RESET`, 70_reset_and_hazards.md R261 -/
  | reset
  /-- `SAMPLE.SAW`, 43_synth_engine.md R210 -/
  | sampleSaw
  /-- `SAMPLE.SINE`, 43_synth_engine.md R213 -/
  | sampleSine
  /-- `SCAN.READ`, 41_key_scanner.md R142: the row words, row 0 first -/
  | scanRead (rows : List Nibble)
  /-- `SCAN.ROLE`, 41_key_scanner.md R146 -/
  | scanRole
  /-- `SCAN.K0`, 41_key_scanner.md R147 -/
  | scanK0
  /-- `SCAN.K1`, 41_key_scanner.md R147 -/
  | scanK1
  /-- `SCAN.K2`, 41_key_scanner.md R147 -/
  | scanK2
  /-- `SCAN.NOTES`, 41_key_scanner.md R148 -/
  | scanNotes
  /-- `SCAN.MERGE`, 41_key_scanner.md R150 -/
  | scanMerge
  /-- `SCAN.STEP`, 41_key_scanner.md R153 -/
  | scanStep
  /-- `SCAN.TX`, 42_bus_codec.md R176 -/
  | scanTx
  /-- `RXPUSH`, 42_bus_codec.md R179: the identifier and the 8 data bytes -/
  | rxpush (id : Nat) (data : Frame)
  /-- `DECODE`, 42_bus_codec.md R181 -/
  | decode
  /-- `TXPOP`, 42_bus_codec.md R186 -/
  | txpop
  /-- `TXSEND`, 42_bus_codec.md R187 -/
  | txsend
  /-- `TXDONE`, 42_bus_codec.md R188 -/
  | txdone
  /-- `FRAME.PRESS`, 42_bus_codec.md R181 -/
  | framePress (octave keyIndex : Nibble) (low6 high6 : BitVec 6) (pad5 pad6 pad7 : Byte)
  /-- `FRAME.RELEASE`, 42_bus_codec.md R181 -/
  | frameRelease (octave keyIndex : Nibble) (low6 high6 : BitVec 6) (pad5 pad6 pad7 : Byte)
  /-- `QDEC.00_00`, 30_encoding.md R106: the pattern as knob `k`'s decoder sees it (40_knob_decoder.md R130); so on for the
  other fifteen -/
  | qdec0000 (k : KnobId)
  /-- `QDEC.00_01` -/
  | qdec0001 (k : KnobId)
  /-- `QDEC.00_10` -/
  | qdec0010 (k : KnobId)
  /-- `QDEC.00_11` -/
  | qdec0011 (k : KnobId)
  /-- `QDEC.01_00` -/
  | qdec0100 (k : KnobId)
  /-- `QDEC.01_01` -/
  | qdec0101 (k : KnobId)
  /-- `QDEC.01_10` -/
  | qdec0110 (k : KnobId)
  /-- `QDEC.01_11` -/
  | qdec0111 (k : KnobId)
  /-- `QDEC.10_00` -/
  | qdec1000 (k : KnobId)
  /-- `QDEC.10_01` -/
  | qdec1001 (k : KnobId)
  /-- `QDEC.10_10` -/
  | qdec1010 (k : KnobId)
  /-- `QDEC.10_11` -/
  | qdec1011 (k : KnobId)
  /-- `QDEC.11_00` -/
  | qdec1100 (k : KnobId)
  /-- `QDEC.11_01` -/
  | qdec1101 (k : KnobId)
  /-- `QDEC.11_10` -/
  | qdec1110 (k : KnobId)
  /-- `QDEC.11_11` -/
  | qdec1111 (k : KnobId)
  /-- `SCAN`, 30_encoding.md R94: the row words of its `SCAN.READ` -/
  | scan (rows : List Nibble)
  /-- `TX`, 30_encoding.md R94 -/
  | tx
  /-- `SAMPLE*n`, 30_encoding.md R94 -/
  | sampleN (n : Nat)
  deriving DecidableEq, Repr

/-- The words an operation is read from (30_encoding.md R90): a trace line (EVENT and PSEUDO formats), a bus frame (FRAME), or
a quadrature pattern together with the knob whose decoder sees it (QDEC). -/
inductive CodeWord where
  /-- the hexadecimal digits of a trace line, the operation number first (30_encoding.md R93) -/
  | line (digits : List Nibble)
  /-- a frame, 30_encoding.md R95 -/
  | frame (f : Frame)
  /-- a pattern of bits prev then cur, 30_encoding.md R105 -/
  | qdec (k : KnobId) (pattern : Nibble)
  deriving DecidableEq, Repr

/-- Why a word is the encoding of no operation. -/
inductive DecodeError where
  /-- a trace line with no digit -/
  | emptyLine
  /-- a trace line whose operation number is `op` and whose operand digits are not those 30_encoding.md R93 or R94 give it -/
  | badOperands (op : Nibble)
  /-- a frame that 30_encoding.md R102 calls malformed -/
  | malformedFrame
  deriving DecidableEq, Repr

end Sys2Proof
end

