-- ==== Sys2Proof/WellFormed.lean ====
section
/-! DEFINITION. Which operations the encodings can express (30_encoding.md R92 to R106), and which of the two variants of
`SAMPLE` a selector value selects. -/

namespace Sys2Proof

/-- The operands are ones the operation's encoding has: `N_ROWS` row words (41_key_scanner.md R142), an identifier of the
trace's width (30_encoding.md R93), a frame's octave and key index in range (R102). A `SAMPLE*n` of `n < 2` has no encoding of
its own: one `SAMPLE` is the operation `SAMPLE` (entry 13). -/
def Instr.wellFormed (c : Config) : Instr → Bool
  | .reset => true
  | .sampleSaw => true
  | .sampleSine => true
  | .scanRead rows => rows.length == c.nRows
  | .scanRole => true
  | .scanK0 => true
  | .scanK1 => true
  | .scanK2 => true
  | .scanNotes => true
  | .scanMerge => true
  | .scanStep => true
  | .scanTx => true
  | .rxpush id _ => decide (id < 16 ^ c.busIdDigits)
  | .decode => true
  | .txpop => true
  | .txsend => true
  | .txdone => true
  | .framePress o k _ _ _ _ _ => decide (o.toNat ≤ 8) && decide (k.toNat ≤ 11)
  | .frameRelease o k _ _ _ _ _ => decide (o.toNat ≤ 8) && decide (k.toNat ≤ 11)
  | .qdec0000 _ => true
  | .qdec0001 _ => true
  | .qdec0010 _ => true
  | .qdec0011 _ => true
  | .qdec0100 _ => true
  | .qdec0101 _ => true
  | .qdec0110 _ => true
  | .qdec0111 _ => true
  | .qdec1000 _ => true
  | .qdec1001 _ => true
  | .qdec1010 _ => true
  | .qdec1011 _ => true
  | .qdec1100 _ => true
  | .qdec1101 _ => true
  | .qdec1110 _ => true
  | .qdec1111 _ => true
  | .scan rows => rows.length == c.nRows
  | .tx => true
  | .sampleN n => decide (2 ≤ n)

/-- `SAMPLE.SAW` and `SAMPLE.SINE` have one word; the selector says which of them it is (43_synth_engine.md R208). Every other
operation is what its word says whatever the selector. -/
def Instr.selectedBy (w : Waveform) (i : Instr) : Bool :=
  match w with
  | .saw => decide (i ≠ .sampleSine)
  | .sine => decide (i ≠ .sampleSaw)

end Sys2Proof
end

