-- ==== Sys2Proof/Decode.lean ====
section
/-! DEFINITION. From words to operations and back. A trace line is its operation number in 4 bits and then its operands
(30_encoding.md R92, R93); a pseudo-operation's line is its expansion (R94); a frame is read by R95 to R102, a quadrature pattern
by R105 and R106. The encoder follows, from the same tables. Then the reading of one number as a row of spec/opcode_table.json. -/

namespace Sys2Proof

/-- The number that a list of hexadecimal digits stands for, first digit most significant (30_encoding.md R93). -/
def digitsValue : List Nibble → Nat
  | [] => 0
  | d :: ds => d.toNat * 16 ^ ds.length + digitsValue ds

/-- `n` hexadecimal digits of a number, most significant first (30_encoding.md R93). -/
def digitsOf : Nat → Nat → List Nibble
  | 0, _ => []
  | n + 1, v => BitVec.ofNat 4 (v / 16 ^ n) :: digitsOf n v

/-- One byte written as two hexadecimal digits, high digit first (30_encoding.md R93). -/
def byteOfDigits (hi lo : Nibble) : Byte := hi ++ lo

def digitsOfByte (b : Byte) : List Nibble := [b.extractLsb' 4 4, b.extractLsb' 0 4]

/-- Sixteen digits as the 8 data bytes of a frame, byte 0 first (30_encoding.md R93). -/
def frameOfDigits : List Nibble → Option Frame
  | [a0, a1, a2, a3, a4, a5, a6, a7, a8, a9, a10, a11, a12, a13, a14, a15] =>
    some ⟨byteOfDigits a0 a1, byteOfDigits a2 a3, byteOfDigits a4 a5, byteOfDigits a6 a7,
      byteOfDigits a8 a9, byteOfDigits a10 a11, byteOfDigits a12 a13, byteOfDigits a14 a15⟩
  | _ => none

def digitsOfFrame (f : Frame) : List Nibble :=
  digitsOfByte f.b0 ++ digitsOfByte f.b1 ++ digitsOfByte f.b2 ++ digitsOfByte f.b3 ++
  digitsOfByte f.b4 ++ digitsOfByte f.b5 ++ digitsOfByte f.b6 ++ digitsOfByte f.b7

/-- "A received frame `f` is well-formed, `wf(f)`, when all of these hold" (30_encoding.md R102). -/
def Frame.wellFormed (f : Frame) : Bool :=
  (f.b0 == Config.typePress || f.b0 == Config.typeRelease) && decide (f.b1.toNat ≤ 8) && decide (f.b2.toNat ≤ 11) &&
    decide (f.b3.toNat ≤ 63) && decide (f.b4.toNat ≤ 63)

/-- FRAME format: the row a frame is, `FRAME.PRESS` or `FRAME.RELEASE`, with its fields (30_encoding.md R95 to R102). -/
def decodeFrameWord (f : Frame) : Except DecodeError Instr :=
  if f.wellFormed then
    if f.b0 = Config.typePress then
      .ok (.framePress (f.b1.setWidth 4) (f.b2.setWidth 4) (f.b3.setWidth 6) (f.b4.setWidth 6) f.b5 f.b6 f.b7)
    else
      .ok (.frameRelease (f.b1.setWidth 4) (f.b2.setWidth 4) (f.b3.setWidth 6) (f.b4.setWidth 6) f.b5 f.b6 f.b7)
  else .error .malformedFrame

/-- QDEC format: the row of a pattern of bits prev then cur (30_encoding.md R106), at the decoder of knob `k`. -/
def decodeQdec (k : KnobId) (pattern : Nibble) : Instr :=
  match pattern.toNat with
  | 0 => .qdec0000 k
  | 1 => .qdec0001 k
  | 2 => .qdec0010 k
  | 3 => .qdec0011 k
  | 4 => .qdec0100 k
  | 5 => .qdec0101 k
  | 6 => .qdec0110 k
  | 7 => .qdec0111 k
  | 8 => .qdec1000 k
  | 9 => .qdec1001 k
  | 10 => .qdec1010 k
  | 11 => .qdec1011 k
  | 12 => .qdec1100 k
  | 13 => .qdec1101 k
  | 14 => .qdec1110 k
  | _ => .qdec1111 k

/-- An operation without operands: its line is its number alone (30_encoding.md R93). -/
def bareLine (op : Nibble) (i : Instr) (args : List Nibble) : Except DecodeError Instr :=
  if args = [] then .ok i else .error (.badOperands op)

/-- Number 1: `SAMPLE`, its variant chosen by the selector (30_encoding.md R92, 43_synth_engine.md R208), or, where the line
goes on with more ones, `SAMPLE*n` (30_encoding.md R94). -/
def sampleLine (w : Waveform) (args : List Nibble) : Except DecodeError Instr :=
  if args = [] then
    match w with
    | .saw => .ok .sampleSaw
    | .sine => .ok .sampleSine
  else if args = List.replicate args.length 1 then .ok (.sampleN (args.length + 1))
  else .error (.badOperands 1)

/-- The numbers of the eight micro-steps after `SCAN.READ` (30_encoding.md R92, R94). -/
def scanTail : List Nibble := [3, 4, 5, 6, 7, 8, 9, 10]

/-- Number 2: `SCAN.READ` with `N_ROWS` row words (30_encoding.md R93), or `SCAN` where the other eight micro-steps follow
(R94). -/
def scanReadLine (c : Config) (args : List Nibble) : Except DecodeError Instr :=
  if args.length = c.nRows then .ok (.scanRead args)
  else if args.length = c.nRows + 8 ∧ args.drop c.nRows = scanTail then .ok (.scan (args.take c.nRows))
  else .error (.badOperands 2)

/-- Number 11: `RXPUSH` with an identifier and 8 data bytes (30_encoding.md R93). -/
def rxpushLine (c : Config) (args : List Nibble) : Except DecodeError Instr :=
  match frameOfDigits (args.drop c.busIdDigits) with
  | some f => .ok (.rxpush (digitsValue (args.take c.busIdDigits)) f)
  | none => .error (.badOperands 11)

/-- Number 13: `TXPOP`, or `TX` where a `TXSEND` follows on the line (30_encoding.md R93, R94). -/
def txpopLine (args : List Nibble) : Except DecodeError Instr :=
  if args = [] then .ok .txpop else if args = [14] then .ok .tx else .error (.badOperands 13)

/-- A trace line (30_encoding.md R92 to R94): all sixteen numbers are assigned (R107(d)). -/
def decodeLine (c : Config) (w : Waveform) : List Nibble → Except DecodeError Instr
  | [] => .error .emptyLine
  | op :: args =>
    match op.toNat with
    | 0 => bareLine op .reset args
    | 1 => sampleLine w args
    | 2 => scanReadLine c args
    | 3 => bareLine op .scanRole args
    | 4 => bareLine op .scanK0 args
    | 5 => bareLine op .scanK1 args
    | 6 => bareLine op .scanK2 args
    | 7 => bareLine op .scanNotes args
    | 8 => bareLine op .scanMerge args
    | 9 => bareLine op .scanStep args
    | 10 => bareLine op .scanTx args
    | 11 => rxpushLine c args
    | 12 => bareLine op .decode args
    | 13 => txpopLine args
    | 14 => bareLine op .txsend args
    | _ => bareLine op .txdone args

/-- The operation a word is, in the configuration `c` and with the waveform selector at `w`. -/
def decode (c : Config) (w : Waveform) : CodeWord → Except DecodeError Instr
  | .line digits => decodeLine c w digits
  | .frame f => decodeFrameWord f
  | .qdec k pattern => .ok (decodeQdec k pattern)

/-- A frame of a type and five fields, with its pad bytes (30_encoding.md R95). -/
def frameOf (type : Byte) (o k : Nibble) (lo hi : BitVec 6) (p5 p6 p7 : Byte) : Frame :=
  ⟨type, o.setWidth 8, k.setWidth 8, lo.setWidth 8, hi.setWidth 8, p5, p6, p7⟩

/-- The word of an operation (30_encoding.md R92 to R106). -/
def encode (c : Config) : Instr → CodeWord
  | .reset => .line [0]
  | .sampleSaw => .line [1]
  | .sampleSine => .line [1]
  | .scanRead rows => .line (2 :: rows)
  | .scanRole => .line [3]
  | .scanK0 => .line [4]
  | .scanK1 => .line [5]
  | .scanK2 => .line [6]
  | .scanNotes => .line [7]
  | .scanMerge => .line [8]
  | .scanStep => .line [9]
  | .scanTx => .line [10]
  | .rxpush id f => .line (11 :: (digitsOf c.busIdDigits id ++ digitsOfFrame f))
  | .decode => .line [12]
  | .txpop => .line [13]
  | .txsend => .line [14]
  | .txdone => .line [15]
  | .framePress o k lo hi p5 p6 p7 => .frame (frameOf Config.typePress o k lo hi p5 p6 p7)
  | .frameRelease o k lo hi p5 p6 p7 => .frame (frameOf Config.typeRelease o k lo hi p5 p6 p7)
  | .qdec0000 k => .qdec k 0
  | .qdec0001 k => .qdec k 1
  | .qdec0010 k => .qdec k 2
  | .qdec0011 k => .qdec k 3
  | .qdec0100 k => .qdec k 4
  | .qdec0101 k => .qdec k 5
  | .qdec0110 k => .qdec k 6
  | .qdec0111 k => .qdec k 7
  | .qdec1000 k => .qdec k 8
  | .qdec1001 k => .qdec k 9
  | .qdec1010 k => .qdec k 10
  | .qdec1011 k => .qdec k 11
  | .qdec1100 k => .qdec k 12
  | .qdec1101 k => .qdec k 13
  | .qdec1110 k => .qdec k 14
  | .qdec1111 k => .qdec k 15
  | .scan rows => .line (2 :: (rows ++ scanTail))
  | .tx => .line [13, 14]
  | .sampleN n => .line (List.replicate n 1)

/-! ## One number as a row of spec/opcode_table.json (entry 10) -/

/-- The digits of a number, least significant first: the order in which the table's bit numbers run along a trace line. -/
def lowDigits : Nat → Nat → List Nibble
  | 0, _ => []
  | n + 1, v => BitVec.ofNat 4 v :: lowDigits n (v / 16)

/-- How many digits the trace line of operation number `op` has (30_encoding.md R93). -/
def lineLength (c : Config) (op : Nat) : Nat :=
  if op = 2 then 1 + c.nRows else if op = 11 then 1 + c.busIdDigits + 16 else 1

/-- The 64-bit pattern `F` of a frame, byte 0 in bits 63:56 (30_encoding.md R95). -/
def frameOfPattern (w : Nat) : Frame :=
  ⟨BitVec.ofNat 8 (w / 2 ^ 56), BitVec.ofNat 8 (w / 2 ^ 48), BitVec.ofNat 8 (w / 2 ^ 40), BitVec.ofNat 8 (w / 2 ^ 32),
   BitVec.ofNat 8 (w / 2 ^ 24), BitVec.ofNat 8 (w / 2 ^ 16), BitVec.ofNat 8 (w / 2 ^ 8), BitVec.ofNat 8 w⟩

/-- A PSEUDO row's line, where the number written out first digit first is one: `TX` and `SAMPLE*n` in whole bytes, `SCAN`
with the 15 digits of its 6 rows. -/
def pseudoLine (c : Config) (nbits w : Nat) : Option (List Nibble) :=
  let digits := digitsOf (if nbits = 64 then c.nRows + 9 else nbits / 4) w
  match decodeLine c .saw digits with
  | .ok (.scan _) => some digits
  | .ok .tx => some digits
  | .ok (.sampleN _) => some digits
  | _ => none

/-- The word that an `nbits`-bit row of the table stands for when its bits are `w`: a frame where 64 bits are a well-formed
one; a PSEUDO row's line where they spell one; else the EVENT line whose number is in bits 3:0 and whose operand digits
follow upwards, those above `nbits` zero. -/
def tableWord (c : Config) (nbits w : Nat) : CodeWord :=
  if nbits = 64 ∧ (frameOfPattern w).wellFormed then .frame (frameOfPattern w)
  else
    match pseudoLine c nbits w with
    | some digits => .line digits
    | none => .line (lowDigits (lineLength c (w % 16)) (w % 2 ^ nbits))

/-- The operation the decoder reads from a row of the table, in the configuration and with the waveform selector of reset
(`wave = 0`, 10_state.md R46; entry 10). -/
def decodeTableWord (nbits w : Nat) : Option Instr :=
  match decode Config.initial .saw (tableWord Config.initial nbits w) with
  | .ok i => some i
  | .error _ => none

end Sys2Proof
end

