-- ==== Sys2Proof/Machine/State.lean ====
section
/-! DEFINITION. The state of the block (10_state.md R20 to R42), its reset values (R46), and the two types of reasons to stop, which
nothing raises. -/

namespace Sys2Proof.Machine

/-- One entry of the knob register file (10_state.md R22): the last 2-bit raw code and the signed accumulator. -/
structure Knob where
  prev : BitVec 2
  acc : BitVec 5
  deriving DecidableEq, Repr

/-- The pair `merged = (mNotes, mOct)`, written and read whole (10_state.md R31). -/
structure Merged where
  mNotes : NoteBitmap
  mOct : Nibble
  deriving DecidableEq, Repr

/-- The tuple `(rsNotes, rsOct, rsTag)`, written and read whole (10_state.md R35). -/
structure RemoteState where
  rsNotes : NoteBitmap
  rsOct : Nibble
  rsTag : Tag
  deriving DecidableEq, Repr

/-- An output event `tx(id, frame)` handed to the transceiver (20_memory.md R75). -/
structure TxEvent where
  id : Nat
  frame : Frame
  deriving DecidableEq, Repr

/-- One thing that happens next: a trace line (30_encoding.md R93), as its digits, or a scan tick, which has no operation
number (20_memory.md R71). -/
inductive TraceEntry where
  | scanTick
  | op (digits : List Nibble)
  deriving DecidableEq, Repr

structure State where
  /-- the model's own: the parameters of 00_scope.md R7, which no step writes (entry 5) -/
  cfg : Config
  /-- `K[0..3]`, R22 -/
  knobs : PerKnob Knob
  /-- R25 -/
  role : Role
  /-- R26 -/
  roleHint : Bool
  /-- `rows[0 .. N_ROWS-1]`, R27 -/
  rows : List Nibble
  /-- R28 -/
  prevKeys : KeyMask
  /-- R29 -/
  localNotes : NoteBitmap
  /-- R30 -/
  chg : Bool
  /-- R30 -/
  chgIdx : Nibble
  /-- R30 -/
  chgPressed : Bool
  /-- R31 -/
  merged : Merged
  /-- R32 -/
  stepSize : Word32
  /-- R33 -/
  phaseAcc : Word32
  /-- R34 -/
  dacOut : Byte
  /-- R35 -/
  remote : RemoteState
  /-- R37, head first -/
  txq : List Frame
  /-- R38 -/
  txHold : Option Frame
  /-- R39 -/
  txPermits : Nat
  /-- R40, head first -/
  rxq : List Frame
  /-- R21 -/
  scanPos : ScanPos
  /-- `PITCH[0 .. 11]`, R41 -/
  pitch : Vector Word32 12
  /-- `LUT[0 .. 127]`, signed, R42 -/
  lut : Vector Word32 128
  /-- the model's own: the `tx` events so far, oldest first (entry 9) -/
  emitted : List TxEvent
  /-- the model's own: what happens next, soonest first (entry 1) -/
  trace : List TraceEntry
  deriving DecidableEq, Repr

/-- "The block raises no exception" and "never faults" (60_exceptions.md R230): there is no fault. Nobody raises one; safe. -/
inductive Fault where
  deriving DecidableEq, Repr

/-- The step has two outcomes only, a next state or a hold (60_exceptions.md R230), and a hold is a next state (entry 2): there is
no refusal but the one the host's interface asks for. -/
inductive Refusal where
  /-- An operation without a meaning. Nobody raises it: every operation of the table has one. Safe. -/
  | notModelled (mnemonic : String)
  deriving DecidableEq, Repr

/-- Every register, queue, counter and table at its reset value (10_state.md R46), for the parameters `c`, with the output so
far and the input to come as given. -/
def State.afterReset (c : Config) (emitted : List TxEvent) (trace : List TraceEntry) : State where
  cfg := c
  knobs :=
    { vol := ⟨0, c.knobReset.vol⟩, wave := ⟨0, c.knobReset.wave⟩, oct := ⟨0, c.knobReset.oct⟩, ms := ⟨0, c.knobReset.ms⟩ }
  role := .slave
  roleHint := false
  rows := List.replicate c.nRows 0xF
  prevKeys := 0xFFF
  localNotes := 0x000
  chg := false
  chgIdx := 0
  chgPressed := false
  merged := ⟨0x000, 0⟩
  stepSize := 0
  phaseAcc := 0
  dacOut := 128
  remote := ⟨0x000, 0, .none⟩
  txq := []
  txHold := none
  txPermits := c.txSlots
  rxq := []
  scanPos := .idle
  pitch := c.pitch
  lut := c.lut
  emitted := emitted
  trace := trace

/-- The machine right after power-up reset: nothing output yet, no input yet (70_reset_and_hazards.md R261). -/
def State.reset : State := State.afterReset Config.initial [] []

end Sys2Proof.Machine
end

