-- ==== Sys2Proof/Machine/Operands.lean ====
section
/-! DEFINITION. What the operations read: the knobs' semantic values (10_state.md R23), the row snapshot's key mask, knob codes
and handshake key (41_key_scanner.md R143, R146; 40_knob_decoder.md R121), the two tables (41_key_scanner.md R151, R152;
43_synth_engine.md R214), and the read-only outputs (10_state.md R26, R45). -/

namespace Sys2Proof.Machine

def State.knob (s : State) (k : KnobId) : Knob := s.knobs.get k

/-- The accumulator as the signed integer it holds (10_state.md R22). -/
def State.knobValue (s : State) (k : KnobId) : Int := (s.knob k).acc.toInt

/-- "volume level 0 to 8" (10_state.md R23). -/
def State.volume (s : State) : Nat := (s.knobValue .vol).toNat

/-- "octave number 0 to 8" (10_state.md R23). -/
def State.octave (s : State) : Nat := (s.knobValue .oct).toNat

/-- `if wave = 0 then SAMPLE.SAW else SAMPLE.SINE` (43_synth_engine.md R208). -/
def State.wave (s : State) : Waveform := if s.knobValue .wave = 0 then .saw else .sine

/-- `rows[r]`; a row that was not read is released contacts (entry 12). -/
def rowWord (rows : List Nibble) (r : Nat) : Nibble := rows.getD r 0xF

/-- Bit `col` of row `r` (30_encoding.md R103). -/
def contact (rows : List Nibble) (r : Nat) (col : Fin 4) : Bool := (rowWord rows r).getLsbD col.val

/-- `keys = {rows[2], rows[1], rows[0]}` (41_key_scanner.md R143). -/
def keyMask (rows : List Nibble) : KeyMask := rowWord rows 2 ++ rowWord rows 1 ++ rowWord rows 0

/-- `notes = ~keys` at 12 bits (41_key_scanner.md R144). -/
def notesOf (keys : KeyMask) : NoteBitmap := ~~~keys

/-- `cur(k) = {B, A}` from the row snapshot (30_encoding.md R105, 40_knob_decoder.md R121). -/
def State.knobCode (s : State) (k : KnobId) : BitVec 2 :=
  BitVec.ofBool (contact s.rows (s.cfg.wiring.get k).row (s.cfg.wiring.get k).colB) ++
    BitVec.ofBool (contact s.rows (s.cfg.wiring.get k).row (s.cfg.wiring.get k).colA)

/-- The handshake key is asserted: its bit is cleared (41_key_scanner.md R146). -/
def State.handshake (s : State) : Bool := !contact s.rows s.cfg.hsRow s.cfg.hsCol

/-- The notes in index order (20_memory.md R66). -/
def allNotes : List Note := [0, 1, 2, 3, 4, 5, 6, 7, 8, 9, 10, 11]

/-- `noteStep(i, o)`: the PitchTable entry shifted by the octave's distance from octave 4 (41_key_scanner.md R151). -/
def noteStep (pitch : Vector Word32 12) (i : Note) (o : Nat) : Word32 :=
  if Config.refOctave ≤ o then pitch[i] <<< (o - Config.refOctave) else pitch[i] >>> (Config.refOctave - o)

/-- `chordSum(n, o)`, an exact natural number (41_key_scanner.md R152). -/
def chordSum (pitch : Vector Word32 12) (n : NoteBitmap) (o : Nat) : Nat :=
  (allNotes.map fun i => if n.getLsbD i.val then (noteStep pitch i o).toNat else 0).sum

/-- `voice(step, p)`: the phase's sign bit and 7-bit index look the half cycle up (43_synth_engine.md R214). -/
def voice (lut : Vector Word32 128) (step p : Word32) : Int :=
  let theta := step * p
  let idx : BitVec 7 := theta.extractLsb' 24 7
  if theta.msb then -(lut[idx.toNat]'idx.isLt).toInt else (lut[idx.toNat]'idx.isLt).toInt

/-- The sum of the voices of one NoteBitmap (43_synth_engine.md R213), an exact signed integer. -/
def voiceSum (pitch : Vector Word32 12) (lut : Vector Word32 128) (n : NoteBitmap) (o : Nat) (p : Word32) : Int :=
  (allNotes.map fun i => if n.getLsbD i.val then voice lut (noteStep pitch i o) p else 0).sum

/-- `roleMismatch = (role != roleHint)` (10_state.md R26). -/
def State.roleMismatch (s : State) : Bool := decide (s.role = .master) != s.roleHint

/-- The display's read-only ports: the snapshot of 10_state.md R45, and the registers whose own rules name the display as a reader,
`roleHint` (R26, R47), `rows` (R27, R47; 70_reset_and_hazards.md R277) and `rsTag` (R35). -/
structure Display where
  localNotes : NoteBitmap
  remoteNotes : NoteBitmap
  wave : Waveform
  octave : Nat
  volume : Nat
  role : Role
  roleHint : Bool
  roleMismatch : Bool
  rows : List Nibble
  rsTag : Tag
  deriving DecidableEq, Repr

/-- Each port is wired to its own register, read between two operations (10_state.md R45, 20_memory.md R76,
70_reset_and_hazards.md R277). -/
def State.display (s : State) : Display where
  localNotes := s.localNotes
  remoteNotes := s.merged.mNotes
  wave := s.wave
  octave := s.octave
  volume := s.volume
  role := s.role
  roleHint := s.roleHint
  roleMismatch := s.roleMismatch
  rows := s.rows
  rsTag := s.remote.rsTag

end Sys2Proof.Machine
end

