-- ==== Sys2Proof/Machine/Flags.lean ====
section
/-! DEFINITION. What the operations compute: the quadrature delta and the knob policies (30_encoding.md R106, 40_knob_decoder.md
R123 to R127), the change record (41_key_scanner.md R145), the frame codec (42_bus_codec.md R172, R180) and the two output
stages (43_synth_engine.md R210, R212, R216). -/

namespace Sys2Proof.Machine

/-- `clamp(v, lo, hi)` (00_scope.md R9). -/
def clamp (v lo hi : Int) : Int := if v < lo then lo else if hi < v then hi else v

/-- `QDEC(prev, cur)`: the four named pairs give -1 or +1, every other pair 0 (30_encoding.md R106). -/
def quadDelta (prev cur : BitVec 2) : Int :=
  if prev = 0b00 ∧ cur = 0b01 then -1
  else if prev = 0b01 ∧ cur = 0b00 then 1
  else if prev = 0b10 ∧ cur = 0b11 then 1
  else if prev = 0b11 ∧ cur = 0b10 then -1
  else 0

/-- The knob's policy on `t = acc + delta` (40_knob_decoder.md R123 to R127): clamp to the knob's range, but for the volume
knob of a slave, which is forced to 0. -/
def knobPolicy (k : KnobId) (r : Role) (t : Int) : Int :=
  if k = .vol ∧ r = .slave then 0 else clamp t (Config.knobMin k) (Config.knobMax k)

/-- "accumulator 1 ⇒ role=master, 0 ⇒ role=slave" (40_knob_decoder.md R127). -/
def roleOf (acc : Int) : Role := if acc ≠ 0 then .master else .slave

/-- The keys that differ between two scans (41_key_scanner.md R148). -/
def changedKeys (prev keys : KeyMask) : BitVec 12 := keys ^^^ prev

/-- The last difference in scan order, index 0 to 11 (41_key_scanner.md R145); 0 where there is none, and then nothing uses
it. -/
def lastChange (d : BitVec 12) : Note :=
  allNotes.foldl (fun best i => if d.getLsbD i.val then i else best) 0

/-- `buildFrame(keys, octave, chgIdx, chgPressed)` (42_bus_codec.md R172). -/
def buildFrame (keys : KeyMask) (octave : Nat) (chgIdx : Nibble) (chgPressed : Bool) : Frame where
  b0 := if chgPressed then Config.typePress else Config.typeRelease
  b1 := BitVec.ofNat 8 octave
  b2 := chgIdx.setWidth 8
  b3 := (keys.extractLsb' 0 6).setWidth 8
  b4 := (keys.extractLsb' 6 6).setWidth 8
  b5 := 0
  b6 := 0
  b7 := 0

/-- `keys = {high6[5:0], low6[5:0]}` of a frame (30_encoding.md R99). -/
def frameKeys (f : Frame) : KeyMask := f.b4.setWidth 6 ++ f.b3.setWidth 6

/-- `decodeFrame(f)` for a well-formed frame (42_bus_codec.md R180). -/
def decodeFrame (f : Frame) : RemoteState where
  rsNotes := notesOf (frameKeys f)
  rsOct := f.b1.setWidth 4
  rsTag := if f.b0 = Config.typePress then .pressed else .released

/-- The sawtooth's output code from the advanced accumulator (43_synth_engine.md R210, R212). -/
def sawCode (p : Word32) (volume : Nat) : Byte :=
  let s : Int := ((p.extractLsb' 24 8).toNat : Int) - Config.dacMid
  let a := s >>> (Config.sawShiftBase - volume)
  BitVec.ofInt 8 (clamp (a + Config.dacMid) 0 255)

/-- `out8(a)` (43_synth_engine.md R216). -/
def out8 (sineSat : Bool) (a : Int) : Byte :=
  if sineSat then BitVec.ofInt 8 (clamp (a + Config.dacMid) 0 255) else BitVec.ofInt 8 (a + Config.dacMid)

/-- The sine's output code from the exact sum of the voices (43_synth_engine.md R213). -/
def sineCode (sineSat : Bool) (sum : Int) (volume : Nat) : Byte :=
  out8 sineSat (sum >>> (Config.sineShiftBase - volume))

end Sys2Proof.Machine
end

