-- ==== Sys2Proof/Machine/Ops.lean ====
section
/-! DEFINITION. The shared operations: the hold, which is all the block has in place of an exception (60_exceptions.md R230,
R238), the Scanner's order (10_state.md R21), the knob decoder (40_knob_decoder.md R130), the reception of a frame
(42_bus_codec.md R181), one sample (43_synth_engine.md R208) and the scan tick (20_memory.md R71). -/

namespace Sys2Proof.Machine

/-- A held agent takes no step: every register is as it was (60_exceptions.md R238, entry 2). -/
def hold (s : State) : State := s

/-- `hold while` the condition `ready` fails (00_scope.md R9); otherwise the operation acts. -/
def whenReady (ready : Bool) (act : State → State) (s : State) : State := if ready then act s else hold s

/-- The Scanner's micro-step at position `here`: held at any other position, and one micro-step further afterwards
(10_state.md R21). -/
def scanMicro (here after : ScanPos) (act : State → State) (s : State) : State :=
  whenReady (decide (s.scanPos = here)) (fun s => { act s with scanPos := after }) s

/-- A knob decoder's action on a delta and a current code (40_knob_decoder.md R122 to R128, R130): apply the delta, then the
knob's policy; remember the code; knob 3 also sets the role. -/
def turnKnob (k : KnobId) (delta : Int) (cur : BitVec 2) (s : State) : State :=
  let new := knobPolicy k s.role (s.knobValue k + delta)
  { s with
    knobs := s.knobs.set k ⟨cur, BitVec.ofInt 5 new⟩
    role := if k = .ms then roleOf new else s.role }

/-- `KnobStep(k)` (40_knob_decoder.md R130). -/
def knobStep (k : KnobId) (s : State) : State :=
  turnKnob k (quadDelta (s.knob k).prev (s.knobCode k)) (s.knobCode k) s

/-- The Decoder's action on a frame (42_bus_codec.md R181): a well-formed one replaces RemoteState, a malformed one changes
nothing. -/
def receiveFrame (f : Frame) (s : State) : State := if f.wellFormed then { s with remote := decodeFrame f } else s

/-- `SAMPLE.SAW` (43_synth_engine.md R205, R210). -/
def sawStep (s : State) : State :=
  let p := s.phaseAcc + s.stepSize
  { s with phaseAcc := p, dacOut := sawCode p s.volume }

/-- `SAMPLE.SINE` (43_synth_engine.md R205, R213). -/
def sineStep (s : State) : State :=
  let p := s.phaseAcc + 1
  let sum := voiceSum s.pitch s.lut s.localNotes s.octave p + voiceSum s.pitch s.lut s.merged.mNotes s.merged.mOct.toNat p
  { s with phaseAcc := p, dacOut := sineCode s.cfg.sineSat sum s.volume }

/-- `SAMPLE`: the variant the selector names (43_synth_engine.md R208). -/
def sampleStep (s : State) : State :=
  match s.wave with
  | .saw => sawStep s
  | .sine => sineStep s

/-- `SAMPLE` repeated `n` times (30_encoding.md R94). -/
def sampleTimes : Nat → State → State
  | 0, s => s
  | n + 1, s => sampleTimes n (sampleStep s)

/-- "A tick that arrives while `scanPos = IDLE` starts one scan cycle"; any other starts nothing (20_memory.md R71). -/
def scanTick (s : State) : State := whenReady (decide (s.scanPos = .idle)) (fun s => { s with scanPos := .read }) s

/-- Whether `SCAN.TX` has a frame to push: slave, and a key changed (42_bus_codec.md R171). -/
def State.mustSend (s : State) : Bool := decide (s.role = .slave) && s.chg

/-- The frame `SCAN.TX` builds (42_bus_codec.md R172, R176). -/
def State.nextFrame (s : State) : Frame := buildFrame (keyMask s.rows) s.octave s.chgIdx s.chgPressed

end Sys2Proof.Machine
end

