-- ==== Sys2Proof/Machine/Bus.lean ====
section
/-! DEFINITION. Reception and transmission (42_bus_codec.md R179 to R188): the environment's `RXPUSH` and `TXDONE`, the Decoder's
`DECODE` and what it does with either type of frame, the Transmitter's `TXPOP` and `TXSEND`, and the pseudo-operation `TX`
(30_encoding.md R94). -/

namespace Sys2Proof.Machine

/-- `DECODE` (42_bus_codec.md R181): held while `rxq` is empty. -/
def decodeStep (s : State) : State :=
  match s.rxq with
  | [] => hold s
  | f :: rest => receiveFrame f { s with rxq := rest }

/-- `TXPOP` (42_bus_codec.md R186): held while `txq` is empty or `txHold` is full. -/
def txpopStep (s : State) : State :=
  match s.txHold, s.txq with
  | none, f :: rest => { s with txq := rest, txHold := some f }
  | none, [] => hold s
  | some _, _ => hold s

/-- `TXSEND` (42_bus_codec.md R187): held while `txHold` is empty or no permit is free. -/
def txsendStep (s : State) : State :=
  match s.txHold, s.txPermits with
  | some f, n + 1 => { s with txPermits := n, emitted := s.emitted ++ [⟨s.cfg.busId, f⟩], txHold := none }
  | some _, 0 => hold s
  | none, _ => hold s

/-- `RXPUSH(id, data)` (42_bus_codec.md R179): never held; a foreign identifier or a full `rxq` discards the frame. -/
def execRxpush (id : Nat) (data : Frame) (s : State) : Host.Outcome State Fault Refusal :=
  .next { s with rxq := if id = s.cfg.busId ∧ s.rxq.length < s.cfg.rxqDepth then s.rxq ++ [data] else s.rxq }

/-- `DECODE` -/
def execDecode (s : State) : Host.Outcome State Fault Refusal := .next (decodeStep s)

/-- `TXPOP` -/
def execTxpop (s : State) : Host.Outcome State Fault Refusal := .next (txpopStep s)

/-- `TXSEND` -/
def execTxsend (s : State) : Host.Outcome State Fault Refusal := .next (txsendStep s)

/-- `TXDONE` (42_bus_codec.md R188): never held; with no transmission outstanding it is ignored. -/
def execTxdone (s : State) : Host.Outcome State Fault Refusal :=
  .next { s with txPermits := if s.txPermits < s.cfg.txSlots then s.txPermits + 1 else s.txPermits }

/-- `FRAME.PRESS`: what `DECODE` does with a frame of type 80 that it has taken from `rxq` (42_bus_codec.md R181, entry 8). -/
def execFramePress (o k : Nibble) (lo hi : BitVec 6) (p5 p6 p7 : Byte) (s : State) : Host.Outcome State Fault Refusal :=
  .next (receiveFrame (frameOf Config.typePress o k lo hi p5 p6 p7) s)

/-- `FRAME.RELEASE`: the same of a frame of type 82 (42_bus_codec.md R181, entry 8). -/
def execFrameRelease (o k : Nibble) (lo hi : BitVec 6) (p5 p6 p7 : Byte) (s : State) : Host.Outcome State Fault Refusal :=
  .next (receiveFrame (frameOf Config.typeRelease o k lo hi p5 p6 p7) s)

/-- `TX`: `TXPOP`, then `TXSEND` (30_encoding.md R94). -/
def execTx (s : State) : Host.Outcome State Fault Refusal := .next (txsendStep (txpopStep s))

end Sys2Proof.Machine
end

