-- ==== Sys2Proof/Machine/Quadrature.lean ====
section
/-! DEFINITION. The sixteen quadrature patterns (30_encoding.md R106): what `KnobStep(k)` does when the pattern of bits prev then
cur is the row's (40_knob_decoder.md R130). The delta is the row's own; which row is selected is the decoder's matter
(Sys2Proof.decodeQdec, entry 11). -/

namespace Sys2Proof.Machine

/-- `QDEC.00_00` -/
def execQdec0000 (k : KnobId) (s : State) : Host.Outcome State Fault Refusal := .next (turnKnob k 0 0b00 s)

/-- `QDEC.00_01` -/
def execQdec0001 (k : KnobId) (s : State) : Host.Outcome State Fault Refusal := .next (turnKnob k (-1) 0b01 s)

/-- `QDEC.00_10` -/
def execQdec0010 (k : KnobId) (s : State) : Host.Outcome State Fault Refusal := .next (turnKnob k 0 0b10 s)

/-- `QDEC.00_11` -/
def execQdec0011 (k : KnobId) (s : State) : Host.Outcome State Fault Refusal := .next (turnKnob k 0 0b11 s)

/-- `QDEC.01_00` -/
def execQdec0100 (k : KnobId) (s : State) : Host.Outcome State Fault Refusal := .next (turnKnob k 1 0b00 s)

/-- `QDEC.01_01` -/
def execQdec0101 (k : KnobId) (s : State) : Host.Outcome State Fault Refusal := .next (turnKnob k 0 0b01 s)

/-- `QDEC.01_10` -/
def execQdec0110 (k : KnobId) (s : State) : Host.Outcome State Fault Refusal := .next (turnKnob k 0 0b10 s)

/-- `QDEC.01_11` -/
def execQdec0111 (k : KnobId) (s : State) : Host.Outcome State Fault Refusal := .next (turnKnob k 0 0b11 s)

/-- `QDEC.10_00` -/
def execQdec1000 (k : KnobId) (s : State) : Host.Outcome State Fault Refusal := .next (turnKnob k 0 0b00 s)

/-- `QDEC.10_01` -/
def execQdec1001 (k : KnobId) (s : State) : Host.Outcome State Fault Refusal := .next (turnKnob k 0 0b01 s)

/-- `QDEC.10_10` -/
def execQdec1010 (k : KnobId) (s : State) : Host.Outcome State Fault Refusal := .next (turnKnob k 0 0b10 s)

/-- `QDEC.10_11` -/
def execQdec1011 (k : KnobId) (s : State) : Host.Outcome State Fault Refusal := .next (turnKnob k 1 0b11 s)

/-- `QDEC.11_00` -/
def execQdec1100 (k : KnobId) (s : State) : Host.Outcome State Fault Refusal := .next (turnKnob k 0 0b00 s)

/-- `QDEC.11_01` -/
def execQdec1101 (k : KnobId) (s : State) : Host.Outcome State Fault Refusal := .next (turnKnob k 0 0b01 s)

/-- `QDEC.11_10` -/
def execQdec1110 (k : KnobId) (s : State) : Host.Outcome State Fault Refusal := .next (turnKnob k (-1) 0b10 s)

/-- `QDEC.11_11` -/
def execQdec1111 (k : KnobId) (s : State) : Host.Outcome State Fault Refusal := .next (turnKnob k 0 0b11 s)

end Sys2Proof.Machine
end

