-- ==== Sys2Proof/Machine/Reset.lean ====
section
/-! DEFINITION. The environment's `RESET` (70_reset_and_hazards.md R261, R262). -/

namespace Sys2Proof.Machine

/-- `RESET` (70_reset_and_hazards.md R261): every register, queue and counter takes its reset value and LUT is built; what was
output, what is still to come and the parameters are not the block's to reset (entry 4). -/
def execReset (s : State) : Host.Outcome State Fault Refusal := .next (State.afterReset s.cfg s.emitted s.trace)

end Sys2Proof.Machine
end

