-- ==== Sys2Proof/Machine/Sampler.lean ====
section
/-! DEFINITION. The Sampler's operation in its two variants and the pseudo-operation that repeats it (43_synth_engine.md R208,
R210, R213; 30_encoding.md R94). The selection by `wave` is the decoder's (Instr.selectedBy); a meaning is that of its variant
(entry 11). -/

namespace Sys2Proof.Machine

/-- `SAMPLE.SAW` (43_synth_engine.md R210). -/
def execSampleSaw (s : State) : Host.Outcome State Fault Refusal := .next (sawStep s)

/-- `SAMPLE.SINE` (43_synth_engine.md R213). -/
def execSampleSine (s : State) : Host.Outcome State Fault Refusal := .next (sineStep s)

/-- `SAMPLE*n` (30_encoding.md R94). -/
def execSampleN (n : Nat) (s : State) : Host.Outcome State Fault Refusal := .next (sampleTimes n s)

end Sys2Proof.Machine
end

