-- ==== Sys2Proof/Machine/Scanner.lean ====
section
/-! DEFINITION. The Scanner's nine micro-steps (41_key_scanner.md R141 to R153, 42_bus_codec.md R176) and the pseudo-operation
that is all of them (30_encoding.md R94). -/

namespace Sys2Proof.Machine

/-- `SCAN.READ` (41_key_scanner.md R142). It runs at READ, and at IDLE, where its line stands for the scan tick as well
(20_memory.md R71, 30_encoding.md R94, entry 3). -/
def readStep (rows : List Nibble) (s : State) : State :=
  whenReady (decide (s.scanPos = .idle ∨ s.scanPos = .read)) (fun s => { s with rows := rows, scanPos := .role }) s

/-- `SCAN.ROLE` (41_key_scanner.md R146). -/
def roleStep (s : State) : State :=
  scanMicro .role .k0 (fun s => { knobStep .ms s with roleHint := s.handshake }) s

/-- `SCAN.NOTES` (41_key_scanner.md R148). -/
def notesStep (s : State) : State :=
  scanMicro .notes .merge (fun s =>
    let keys := keyMask s.rows
    let d := changedKeys s.prevKeys keys
    let i := lastChange d
    { s with
      localNotes := notesOf keys
      chg := decide (d ≠ 0)
      chgIdx := if d ≠ 0 then BitVec.ofNat 4 i.val else s.chgIdx
      chgPressed := if d ≠ 0 then !keys.getLsbD i.val else s.chgPressed
      prevKeys := keys }) s

/-- `SCAN.MERGE` (41_key_scanner.md R150): a master copies RemoteState's notes and octave, a slave clears the notes. -/
def mergeStep (s : State) : State :=
  scanMicro .merge .step (fun s =>
    { s with
      merged :=
        match s.role with
        | .master => ⟨s.remote.rsNotes, s.remote.rsOct⟩
        | .slave => ⟨0, s.merged.mOct⟩ }) s

/-- `SCAN.STEP` (41_key_scanner.md R153). -/
def stepSizeStep (s : State) : State :=
  scanMicro .step .tx (fun s =>
    { s with
      stepSize := BitVec.ofNat 32
        (chordSum s.pitch s.localNotes s.octave + chordSum s.pitch s.merged.mNotes s.merged.mOct.toNat) }) s

/-- `SCAN.TX` (42_bus_codec.md R176): held, with a frame to push, while `txq` is full. -/
def txStep (s : State) : State :=
  whenReady (decide (s.scanPos = .tx) && (!s.mustSend || decide (s.txq.length < s.cfg.txqDepth)))
    (fun s => { s with txq := if s.mustSend then s.txq ++ [s.nextFrame] else s.txq, scanPos := .idle }) s

/-- `SCAN`: the nine micro-steps in order, with nothing interleaved (30_encoding.md R94). -/
def scanCycle (rows : List Nibble) (s : State) : State :=
  let s := readStep rows s
  let s := roleStep s
  let s := scanMicro .k0 .k1 (knobStep .vol) s
  let s := scanMicro .k1 .k2 (knobStep .wave) s
  let s := scanMicro .k2 .notes (knobStep .oct) s
  let s := notesStep s
  let s := mergeStep s
  let s := stepSizeStep s
  txStep s

/-- `SCAN.READ` -/
def execScanRead (rows : List Nibble) (s : State) : Host.Outcome State Fault Refusal := .next (readStep rows s)

/-- `SCAN.ROLE` -/
def execScanRole (s : State) : Host.Outcome State Fault Refusal := .next (roleStep s)

/-- `SCAN.K0` (41_key_scanner.md R147). -/
def execScanK0 (s : State) : Host.Outcome State Fault Refusal := .next (scanMicro .k0 .k1 (knobStep .vol) s)

/-- `SCAN.K1` (41_key_scanner.md R147). -/
def execScanK1 (s : State) : Host.Outcome State Fault Refusal := .next (scanMicro .k1 .k2 (knobStep .wave) s)

/-- `SCAN.K2` (41_key_scanner.md R147). -/
def execScanK2 (s : State) : Host.Outcome State Fault Refusal := .next (scanMicro .k2 .notes (knobStep .oct) s)

/-- `SCAN.NOTES` -/
def execScanNotes (s : State) : Host.Outcome State Fault Refusal := .next (notesStep s)

/-- `SCAN.MERGE` -/
def execScanMerge (s : State) : Host.Outcome State Fault Refusal := .next (mergeStep s)

/-- `SCAN.STEP` -/
def execScanStep (s : State) : Host.Outcome State Fault Refusal := .next (stepSizeStep s)

/-- `SCAN.TX` -/
def execScanTx (s : State) : Host.Outcome State Fault Refusal := .next (txStep s)

/-- `SCAN` -/
def execScan (rows : List Nibble) (s : State) : Host.Outcome State Fault Refusal := .next (scanCycle rows s)

end Sys2Proof.Machine
end

