-- ==== Sys2Proof/Machine/Dispatch.lean ====
section
/-! DEFINITION. The meaning of every operation, one arm each. -/

namespace Sys2Proof.Machine

def exec (i : Instr) (s : State) : Host.Outcome State Fault Refusal :=
  match i with
  | .reset => Sys2Proof.Machine.execReset s
  | .sampleSaw => Sys2Proof.Machine.execSampleSaw s
  | .sampleSine => Sys2Proof.Machine.execSampleSine s
  | .scanRead rows => Sys2Proof.Machine.execScanRead rows s
  | .scanRole => Sys2Proof.Machine.execScanRole s
  | .scanK0 => Sys2Proof.Machine.execScanK0 s
  | .scanK1 => Sys2Proof.Machine.execScanK1 s
  | .scanK2 => Sys2Proof.Machine.execScanK2 s
  | .scanNotes => Sys2Proof.Machine.execScanNotes s
  | .scanMerge => Sys2Proof.Machine.execScanMerge s
  | .scanStep => Sys2Proof.Machine.execScanStep s
  | .scanTx => Sys2Proof.Machine.execScanTx s
  | .rxpush id data => Sys2Proof.Machine.execRxpush id data s
  | .decode => Sys2Proof.Machine.execDecode s
  | .txpop => Sys2Proof.Machine.execTxpop s
  | .txsend => Sys2Proof.Machine.execTxsend s
  | .txdone => Sys2Proof.Machine.execTxdone s
  | .framePress o k lo hi p5 p6 p7 => Sys2Proof.Machine.execFramePress o k lo hi p5 p6 p7 s
  | .frameRelease o k lo hi p5 p6 p7 => Sys2Proof.Machine.execFrameRelease o k lo hi p5 p6 p7 s
  | .qdec0000 k => Sys2Proof.Machine.execQdec0000 k s
  | .qdec0001 k => Sys2Proof.Machine.execQdec0001 k s
  | .qdec0010 k => Sys2Proof.Machine.execQdec0010 k s
  | .qdec0011 k => Sys2Proof.Machine.execQdec0011 k s
  | .qdec0100 k => Sys2Proof.Machine.execQdec0100 k s
  | .qdec0101 k => Sys2Proof.Machine.execQdec0101 k s
  | .qdec0110 k => Sys2Proof.Machine.execQdec0110 k s
  | .qdec0111 k => Sys2Proof.Machine.execQdec0111 k s
  | .qdec1000 k => Sys2Proof.Machine.execQdec1000 k s
  | .qdec1001 k => Sys2Proof.Machine.execQdec1001 k s
  | .qdec1010 k => Sys2Proof.Machine.execQdec1010 k s
  | .qdec1011 k => Sys2Proof.Machine.execQdec1011 k s
  | .qdec1100 k => Sys2Proof.Machine.execQdec1100 k s
  | .qdec1101 k => Sys2Proof.Machine.execQdec1101 k s
  | .qdec1110 k => Sys2Proof.Machine.execQdec1110 k s
  | .qdec1111 k => Sys2Proof.Machine.execQdec1111 k s
  | .scan rows => Sys2Proof.Machine.execScan rows s
  | .tx => Sys2Proof.Machine.execTx s
  | .sampleN n => Sys2Proof.Machine.execSampleN n s

end Sys2Proof.Machine
end

