-- ==== Sys2Proof/Machine/Fetch.lean ====
section
/-! DEFINITION. Where the next operation comes from: the head of the trace (30_encoding.md R93, entry 1); and how a word is put
there (entry 10). -/

namespace Sys2Proof.Machine

/-- The operation a trace line names in this state: its parameters give the operands' lengths, its selector the variant of
`SAMPLE` (30_encoding.md R93, 43_synth_engine.md R208). -/
def State.lineOp (s : State) (digits : List Nibble) : Except DecodeError Instr := decode s.cfg s.wave (.line digits)

/-- The position that selects a Scanner micro-step by its number, `none` for the other operations (30_encoding.md R91, R92). -/
def positionOf (op : Nat) : Option ScanPos :=
  match op with
  | 2 => some .read
  | 3 => some .role
  | 4 => some .k0
  | 5 => some .k1
  | 6 => some .k2
  | 7 => some .notes
  | 8 => some .merge
  | 9 => some .step
  | 10 => some .tx
  | _ => none

/-- Put a word where the next step takes it from: a line at the head of the trace, with the Scanner at the position that
selects it; a frame at the head of `rxq`, with the Decoder to move next. A quadrature pattern is not fetched: it is what the
knob's registers and the row snapshot make it (entry 10). -/
def State.placeWord (s : State) : CodeWord → State
  | .line digits =>
    { s with
      trace := .op digits :: s.trace
      scanPos := ((digits.head?).bind fun op => positionOf op.toNat).getD s.scanPos }
  | .frame f => { s with rxq := f :: s.rxq, trace := .op [12] :: s.trace }
  | .qdec _ _ => s

end Sys2Proof.Machine
end

