-- ==== Sys2Proof/Machine/Step.lean ====
section
/-! DEFINITION. One step: the next entry of the trace happens. -/

namespace Sys2Proof.Machine

/-- The head of the trace happens and leaves it: a scan tick (20_memory.md R71) or the operation its line names
(30_encoding.md R93). A line that names none enables no agent, and the block holds
(60_exceptions.md R230, R238, entry 16). With nothing left to happen every agent waits (entry 1). -/
def step (s : State) : Host.Outcome State Fault Refusal :=
  match s.trace with
  | [] => .next s
  | .scanTick :: rest => .next (scanTick { s with trace := rest })
  | .op digits :: rest =>
    match s.lineOp digits with
    | .ok i => exec i { s with trace := rest }
    | .error _ => .next (hold { s with trace := rest })

/-- `s` with the instruction of a row of spec/opcode_table.json placed where `step` takes its next operation from (entry 10). -/
def State.withFetchWord (s : State) (nbits w : Nat) : State := s.placeWord (tableWord s.cfg nbits w)

end Sys2Proof.Machine
end

