-- ==== Sys2Proof/Safety.lean ====
section
/-! DEFINITION. The terms claims are made in: when an operation is enabled and a trace admissible (30_encoding.md R93), the
invariant of every reachable state (10_state.md R24 and the ranges of R22 to R42), and the frames on their way out in order
(20_memory.md R81). -/

namespace Sys2Proof.Machine

/-- When an operation that has a number is not held (30_encoding.md R93, 60_exceptions.md R238). The rows of the other formats
are no operations of an agent and are never held themselves. -/
def enabled (i : Instr) (s : State) : Bool :=
  match i with
  | .reset => true
  | .sampleSaw => true
  | .sampleSine => true
  | .scanRead _ => decide (s.scanPos = .idle ∨ s.scanPos = .read)
  | .scanRole => decide (s.scanPos = .role)
  | .scanK0 => decide (s.scanPos = .k0)
  | .scanK1 => decide (s.scanPos = .k1)
  | .scanK2 => decide (s.scanPos = .k2)
  | .scanNotes => decide (s.scanPos = .notes)
  | .scanMerge => decide (s.scanPos = .merge)
  | .scanStep => decide (s.scanPos = .step)
  | .scanTx => decide (s.scanPos = .tx) && (!(decide (s.role = .slave) && s.chg) || decide (s.txq.length < s.cfg.txqDepth))
  | .rxpush _ _ => true
  | .decode => decide (s.rxq ≠ [])
  | .txpop => decide (s.txq ≠ []) && decide (s.txHold = none)
  | .txsend => decide (s.txHold ≠ none) && decide (s.txPermits ≠ 0)
  | .txdone => true
  | .framePress _ _ _ _ _ _ _ => true
  | .frameRelease _ _ _ _ _ _ _ => true
  | .qdec0000 _ => true
  | .qdec0001 _ => true
  | .qdec0010 _ => true
  | .qdec0011 _ => true
  | .qdec0100 _ => true
  | .qdec0101 _ => true
  | .qdec0110 _ => true
  | .qdec0111 _ => true
  | .qdec1000 _ => true
  | .qdec1001 _ => true
  | .qdec1010 _ => true
  | .qdec1011 _ => true
  | .qdec1100 _ => true
  | .qdec1101 _ => true
  | .qdec1110 _ => true
  | .qdec1111 _ => true
  | .scan _ => true
  | .tx => true
  | .sampleN _ => true

/-- The Scanner has passed `SCAN.K0` in the cycle it is in. -/
def pastK0 (p : ScanPos) : Prop := p ∈ [ScanPos.k1, .k2, .notes, .merge, .step, .tx]

/-- The Scanner is where `rows` is the snapshot `prevKeys` was taken from: past `SCAN.NOTES` and not yet past the next
`SCAN.READ`. -/
def rowsNoted (p : ScanPos) : Prop := p ∈ [ScanPos.merge, .step, .tx, .idle, .read]

/-- The Scanner is where `role` is the role the last `SCAN.MERGE` saw: past it and not yet past the next `SCAN.ROLE`. -/
def roleMerged (p : ScanPos) : Prop := p ∈ [ScanPos.step, .tx, .idle, .read, .role]

/-- What holds in every state the block reaches between two operations. -/
structure BlockInvariant (s : State) : Prop where
  cfgValid : s.cfg.Valid
  /-- "accumulator always within [min,max] after decode" (10_state.md R24) -/
  knobRange : ∀ k : KnobId, Config.knobMin k ≤ s.knobValue k ∧ s.knobValue k ≤ Config.knobMax k
  /-- `role` always equals `(K[3].acc != 0)` (10_state.md R25) -/
  roleKnob : s.role = .master ↔ s.knobValue .ms ≠ 0
  /-- "After `SCAN.K0` in a slave, `K[0].acc = 0`" (10_state.md R24) -/
  slaveVolume : pastK0 s.scanPos → s.role = .slave → s.knobValue .vol = 0
  /-- `mNotes` is "all zero unless the last `SCAN.MERGE` ran as master" (10_state.md R45) -/
  slaveMerged : roleMerged s.scanPos → s.role = .slave → s.merged.mNotes = 0
  rowCount : s.rows.length = s.cfg.nRows
  /-- both are published by `SCAN.NOTES` from one key mask (41_key_scanner.md R148) -/
  notesOfPrev : s.localNotes = notesOf s.prevKeys
  /-- the mask `SCAN.TX` sends is the new `prevKeys` (42_bus_codec.md R176, corner case b) -/
  prevOfRows : rowsNoted s.scanPos → s.prevKeys = keyMask s.rows
  /-- key index 0 to 11 (10_state.md R30) -/
  chgIdxRange : s.chgIdx.toNat ≤ 11
  /-- octaves 0 to 8 (30_encoding.md R97, R102) -/
  mOctRange : s.merged.mOct.toNat ≤ 8
  rsOctRange : s.remote.rsOct.toNat ≤ 8
  /-- the capacities of 10_state.md R37, R39, R40 -/
  txqRange : s.txq.length ≤ s.cfg.txqDepth
  rxqRange : s.rxq.length ≤ s.cfg.rxqDepth
  permitRange : s.txPermits ≤ s.cfg.txSlots
  /-- "Every frame `buildFrame` makes is well-formed" (42_bus_codec.md R172) -/
  txqFrames : ∀ f ∈ s.txq, f.wellFormed = true
  heldFrame : ∀ f ∈ s.txHold, f.wellFormed = true
  /-- every frame sent carries `BUS_ID` (30_encoding.md R101) -/
  sentFrames : ∀ e ∈ s.emitted, e.id = s.cfg.busId ∧ e.frame.wellFormed = true
  /-- the tables are never written after reset (10_state.md R41, R42) -/
  pitchTable : s.pitch = s.cfg.pitch
  lutTable : s.lut = s.cfg.lut

/-- The frames a board has built, in order: those handed to the transceiver, then the one held, then those queued. -/
def outbound (s : State) : List Frame := s.emitted.map TxEvent.frame ++ s.txHold.toList ++ s.txq

end Sys2Proof.Machine
end

