-- ==== Sys2Proof/Certificates/Slice0/Obligations.lean ====
section
/-! DEFINITION. The statements for the provers. Each docstring names the rule of spec/ it is about. A formula is written out from
the rule wherever that is short, not by the model's own function. -/

open Sys2Proof Sys2Proof.Machine

/-! ## Encodings -/

/-- R92 to R106: decoding the word of a well-formed operation gives that operation, with every operand. The width of an identifier,
the formats told apart, the knob in a QDEC word and the lines of the pseudo-operations are the model's choice (entries 7, 10, 11,
13). -/
def Obligations.DecodeOfEncodeIsTheOperation : Prop :=
  ∀ (c : Config) (w : Waveform) (i : Instr),
    i.wellFormed c = true → i.selectedBy w = true → decode c w (encode c i) = .ok i

/-- R92 to R106: a word that decodes is the word of the operation it decodes to, which is well-formed: no word has two meanings
and no bit of a word is dropped. The width of an identifier, the formats told apart, the knob in a QDEC word and a line of ones read
as `SAMPLE*n` for `n` of at least 2 only are the model's choice (entries 7, 10, 11, 13). -/
def Obligations.EncodeOfDecodeIsTheWord : Prop :=
  ∀ (c : Config) (w : Waveform) (x : CodeWord) (i : Instr),
    decode c w x = .ok i → i.wellFormed c = true ∧ i.selectedBy w = true ∧ encode c i = x

/-- R107(d): every operation number is assigned; with as many operand digits as R93 gives it, a line always decodes. How many of
them hold an identifier is a parameter (entry 7: the model's choice). -/
def Obligations.EveryOperationNumberDecodes : Prop :=
  ∀ (c : Config) (w : Waveform) (op : Nibble) (args : List Nibble),
    args.length + 1 = lineLength c op.toNat → ∃ i, decode c w (.line (op :: args)) = .ok i

/-- R92, R95, R106: a few words spelled out bit by bit decode to the operations they stand for. That the identifier of the `RXPUSH`
line has three digits is the model's choice (entry 7; R93 leaves the width to `BUS_ID`), and so are the knob beside the QDEC
pattern (entry 11) and the line of `TX` as one word (entry 13). -/
def Obligations.SpelledWordsDecode : Prop :=
  decode Config.initial .saw (.line [0b0000]) = .ok .reset ∧
  decode Config.initial .saw (.line [0b0001]) = .ok .sampleSaw ∧
  decode Config.initial .sine (.line [0b0001]) = .ok .sampleSine ∧
  decode Config.initial .saw (.line [0b0010, 0xE, 0x6, 0xF, 0xF, 0xF, 0x7]) = .ok (.scanRead [0xE, 0x6, 0xF, 0xF, 0xF, 0x7]) ∧
  decode Config.initial .saw
      (.line [0b1011, 1, 2, 3, 5, 0, 0, 3, 0, 0, 3, 4, 3, 0xF, 0, 0, 0, 0, 0, 0]) =
    .ok (.rxpush 0x123 ⟨0x50, 0x03, 0x00, 0x34, 0x3F, 0x00, 0x00, 0x00⟩) ∧
  decode Config.initial .saw (.frame ⟨0x50, 0x05, 0x06, 0x3F, 0x3E, 0, 0, 0⟩) =
    .ok (.framePress 5 6 0b111111 0b111110 0 0 0) ∧
  decode Config.initial .saw (.qdec .oct 0b0100) = .ok (.qdec0100 .oct) ∧
  decode Config.initial .saw (.line [0b1101, 0b1110]) = .ok .tx

/-! ## The step -/

/-- R93, entry 1: where the next trace line decodes to an operation, the step is that operation, with the line taken from the
trace and nothing else done. -/
def Obligations.StepRunsTheDecodedLine : Prop :=
  ∀ (s : State) (digits : List Nibble) (rest : List TraceEntry) (i : Instr),
    s.trace = .op digits :: rest → decode s.cfg s.wave (.line digits) = .ok i →
      step s = exec i { s with trace := rest }

/-- R71: a scan tick at IDLE starts a cycle; at any other position it starts nothing. That a tick is an entry of the trace and is
taken from it is the model's choice (entries 1 and 3). -/
def Obligations.ScanTickStartsACycleOnlyAtIdle : Prop :=
  ∀ (s : State) (rest : List TraceEntry), s.trace = .scanTick :: rest →
    (s.scanPos = .idle → step s = .next { s with trace := rest, scanPos := .read }) ∧
    (s.scanPos ≠ .idle → step s = .next { s with trace := rest })

/-- R208: the line of `SAMPLE` runs the variant the selector names; the trace is the model's (entry 1). -/
def Obligations.SampleLineRunsTheSelectedVariant : Prop :=
  ∀ (s : State) (rest : List TraceEntry), s.trace = .op [1] :: rest →
    (s.knobValue .wave = 0 → step s = exec .sampleSaw { s with trace := rest }) ∧
    (s.knobValue .wave ≠ 0 → step s = exec .sampleSine { s with trace := rest })

/-- R230, R238: the step never faults and never refuses, over any number of steps on any input. A line that is the word of no
operation is a hold: no register changes (entries 2 and 16: that a hold is a next state and uses its line up is the model's
choice). -/
def Obligations.StepNeverFaults : Prop :=
  (∀ s : State, ∃ t, step s = .next t) ∧
  (∀ (n : Nat) (s : State), ∃ t, Host.Core.run Sys2Proof.core n s = .next t) ∧
  ∀ (s : State) (digits : List Nibble) (rest : List TraceEntry) (why : DecodeError),
    s.trace = .op digits :: rest → decode s.cfg s.wave (.line digits) = .error why → step s = .next { s with trace := rest }

/-- R230, R238, entry 2: an operation that is not enabled is held, and a hold changes nothing. -/
def Obligations.HeldOperationChangesNothing : Prop :=
  ∀ (i : Instr) (s : State), enabled i s = false → exec i s = .next s

/-- R94: `SCAN` is its nine micro-steps, one step each, with nothing interleaved. In a state where some of them are held, such as
one in mid-cycle, their lines are used up and skipped on both sides: that is the model's choice (entries 2 and 13), of which R94
says nothing. -/
def Obligations.ScanIsNineSteps : Prop :=
  ∀ (s : State) (rows : List Nibble) (rest : List TraceEntry), rows.length = s.cfg.nRows →
    Host.Core.run Sys2Proof.core 9
        { s with trace := [.op (2 :: rows), .op [3], .op [4], .op [5], .op [6], .op [7], .op [8], .op [9], .op [10]] ++ rest } =
      exec (.scan rows) { s with trace := rest }

/-- R94: `TX` is `TXPOP` and then `TXSEND`. Where one of them is held, its line is used up and skipped on both sides: that is the
model's choice (entries 2 and 13), of which R94 says nothing. -/
def Obligations.TxIsTwoSteps : Prop :=
  ∀ (s : State) (rest : List TraceEntry),
    Host.Core.run Sys2Proof.core 2 { s with trace := [.op [13], .op [14]] ++ rest } = exec .tx { s with trace := rest }

/-- R94: `SAMPLE*n` is `n` sample ticks, whichever variant is selected; that it is one operation is the model's choice (entry 13). -/
def Obligations.SampleNIsNSteps : Prop :=
  ∀ (n : Nat) (s : State) (rest : List TraceEntry),
    Host.Core.run Sys2Proof.core n { s with trace := List.replicate n (.op [1]) ++ rest } =
      exec (.sampleN n) { s with trace := rest }

/-! ## Reset -/

/-- R46, R261: every piece of the block's state after `RESET`. -/
def Obligations.ResetGivesTheResetTable : Prop :=
  ∀ s : State, ∃ t, exec .reset s = .next t ∧
    (∀ k : KnobId, (t.knob k).prev = 0b00 ∧ (t.knob k).acc = s.cfg.knobReset.get k) ∧
    t.role = .slave ∧ t.roleHint = false ∧
    t.rows.length = s.cfg.nRows ∧ (∀ r ∈ t.rows, r = 0xF) ∧
    t.prevKeys = 0xFFF ∧ t.localNotes = 0x000 ∧
    t.chg = false ∧ t.chgIdx = 0 ∧ t.chgPressed = false ∧
    t.merged = ⟨0x000, 0⟩ ∧ t.stepSize = 0 ∧ t.phaseAcc = 0 ∧ t.dacOut = 128 ∧
    t.remote = ⟨0x000, 0, .none⟩ ∧ t.txq = [] ∧ t.rxq = [] ∧ t.txHold = none ∧
    t.txPermits = s.cfg.txSlots ∧ t.scanPos = .idle ∧ t.pitch = s.cfg.pitch ∧ t.lut = s.cfg.lut

/-- R261, corner case: with the knobs' default reset values, a `SAMPLE` straight after `RESET` gives the code 127. -/
def Obligations.SampleAfterResetGives127 : Prop :=
  ∀ s t : State, s.cfg.knobReset = ⟨0, 0, 0, 0⟩ → exec .reset s = .next t →
    t.wave = .saw ∧ exec .sampleSaw t = .next { t with phaseAcc := 0, dacOut := 127 }

/-- R266: both +1 pairs start from a code other than the reset code, so no board is master after its first scan cycle. -/
def Obligations.FirstScanAfterResetIsSlave : Prop :=
  ∀ (s t : State) (rows : List Nibble), s.cfg.knobReset.ms = 0 → rows.length = s.cfg.nRows → exec .reset s = .next t →
    ∃ u, exec (.scan rows) t = .next u ∧ u.role = .slave

/-! ## The Sampler -/

/-- R205, R210: the accumulator advances by the step size, and the high 8 bits, centred, shifted down with rounding toward
minus infinity and centred again are the output; nothing else changes. -/
def Obligations.SampleSawResult : Prop :=
  ∀ s : State, s.volume ≤ 8 → ∃ t, exec .sampleSaw s = .next t ∧
    t = { s with phaseAcc := t.phaseAcc, dacOut := t.dacOut } ∧
    t.phaseAcc.toNat = (s.phaseAcc.toNat + s.stepSize.toNat) % 2 ^ 32 ∧
    (t.dacOut.toNat : Int) =
      max 0 (min 255 ((((t.phaseAcc.toNat / 2 ^ 24 : Nat) : Int) - 128) / 2 ^ (8 - s.volume) + 128))

/-- R212: the clamp of the sawtooth's output stage never changes the value. -/
def Obligations.SawClampNeverActs : Prop :=
  ∀ (p : Word32) (volume : Nat), volume ≤ 8 →
    let a : Int := (((p.toNat / 2 ^ 24 : Nat) : Int) - 128) / 2 ^ (8 - volume)
    0 ≤ a + 128 ∧ a + 128 ≤ 255 ∧ ((sawCode p volume).toNat : Int) = a + 128

/-- R210, corner cases c and d: volume 0 leaves only the sign, 127 or 128; volume 8 passes the ramp through. -/
def Obligations.SawAtTheEndsOfTheVolume : Prop :=
  ∀ s : State,
    (s.volume = 0 → exec .sampleSaw s = .next { s with
      phaseAcc := s.phaseAcc + s.stepSize,
      dacOut := if (s.phaseAcc + s.stepSize).toNat < 2 ^ 31 then 127 else 128 }) ∧
    (s.volume = 8 → exec .sampleSaw s = .next { s with
      phaseAcc := s.phaseAcc + s.stepSize,
      dacOut := (s.phaseAcc + s.stepSize).extractLsb' 24 8 })

/-- R214: a voice is the table's entry at bits 30:24 of the low 32 bits of the product, negated where bit 31 is set. -/
def Obligations.VoiceLooksTheHalfCycleUp : Prop :=
  ∀ (lut : Vector Word32 128) (stp p : Word32),
    let theta : Nat := (stp.toNat * p.toNat) % 2 ^ 32
    voice lut stp p =
      if 2 ^ 31 ≤ theta then -(lut[Fin.ofNat 128 (theta / 2 ^ 24)]).toInt else (lut[Fin.ofNat 128 (theta / 2 ^ 24)]).toInt

/-- R205, R213: the accumulator advances by 1; the local voices at the local octave and the remote voices at the remote octave
are summed exactly, shifted down by `34 - volume` with rounding toward minus infinity, and go through the output stage;
nothing else changes. -/
def Obligations.SampleSineResult : Prop :=
  ∀ s : State, s.volume ≤ 8 → ∃ t, exec .sampleSine s = .next t ∧
    t = { s with phaseAcc := t.phaseAcc, dacOut := t.dacOut } ∧
    t.phaseAcc.toNat = (s.phaseAcc.toNat + 1) % 2 ^ 32 ∧
    t.dacOut = out8 s.cfg.sineSat
      (((∑ i : Note, if s.localNotes.getLsbD i.val then voice s.lut (noteStep s.pitch i s.octave) t.phaseAcc else 0) +
        (∑ i : Note, if s.merged.mNotes.getLsbD i.val then
          voice s.lut (noteStep s.pitch i s.merged.mOct.toNat) t.phaseAcc else 0)) / 2 ^ (34 - s.volume))

/-- R216: without saturation the sine's output wraps to the low 8 bits, with it it is clamped, and within the range of a signed
byte the two agree. -/
def Obligations.SineOutputWrapsOrClamps : Prop :=
  ∀ a : Int,
    ((out8 false a).toNat : Int) = (a + 128) % 256 ∧
    ((out8 true a).toNat : Int) = max 0 (min 255 (a + 128)) ∧
    (-128 ≤ a → a ≤ 127 → out8 true a = out8 false a)

/-- R217: with no note in either bitmap the sine gives the silence code, whatever the accumulator, the volume and the tables. -/
def Obligations.SineWithoutNotesIsSilent : Prop :=
  ∀ s : State, s.localNotes = 0 → s.merged.mNotes = 0 →
    exec .sampleSine s = .next { s with phaseAcc := s.phaseAcc + 1, dacOut := 128 }

/-- R215: when the accumulator wraps to 0, every voice is at phase 0 together, whatever notes are held. -/
def Obligations.SineAtPhaseZeroIsSilent : Prop :=
  ∀ s : State, s.phaseAcc = 0xFFFFFFFF → s.lut[0] = 0 →
    exec .sampleSine s = .next { s with phaseAcc := 0, dacOut := 128 }

/-- R94, R205: `SAMPLE*n` advances the accumulator by `n` increments and changes nothing but the accumulator and the output.
That it is one operation is the model's choice (entry 13). -/
def Obligations.SampleNResult : Prop :=
  ∀ (n : Nat) (s : State), ∃ t, exec (.sampleN n) s = .next t ∧
    t = { s with phaseAcc := t.phaseAcc, dacOut := t.dacOut } ∧
    (s.knobValue .wave = 0 → t.phaseAcc.toNat = (s.phaseAcc.toNat + n * s.stepSize.toNat) % 2 ^ 32) ∧
    (s.knobValue .wave ≠ 0 → t.phaseAcc.toNat = (s.phaseAcc.toNat + n) % 2 ^ 32)

/-- R206, R80: what the Sampler answers depends on nothing but the inputs R206 lists, the tables and `SINE_SAT`: two boards that
agree on those, and differ in RemoteState, role, rows, queues or anything else, sound the same. -/
def Obligations.SamplerReadsOnlyItsInputs : Prop :=
  ∀ (s s' : State), s.knobValue .wave = s'.knobValue .wave → s.volume = s'.volume → s.octave = s'.octave →
    s.stepSize = s'.stepSize → s.localNotes = s'.localNotes → s.merged = s'.merged → s.phaseAcc = s'.phaseAcc →
    s.pitch = s'.pitch → s.lut = s'.lut → s.cfg.sineSat = s'.cfg.sineSat →
    ∀ i : Instr, (i = .sampleSaw ∨ i = .sampleSine ∨ ∃ n, 1 ≤ n ∧ i = .sampleN n) →
      ∃ t t', exec i s = .next t ∧ exec i s' = .next t' ∧ t.phaseAcc = t'.phaseAcc ∧ t.dacOut = t'.dacOut

/-! ## The tables -/

/-- R151: the octave shift, `mod 2^32` upwards and dropping low bits downwards; where `PITCH[i] < 2^28` and the octave is 0 to 8
the `mod` never acts and one octave up doubles, exactly from octave 4 on, within the truncation below. -/
def Obligations.NoteStepShiftsByOctave : Prop :=
  ∀ (pitch : Vector Word32 12) (i : Note) (o : Nat),
    (4 ≤ o → (noteStep pitch i o).toNat = pitch[i].toNat * 2 ^ (o - 4) % 2 ^ 32) ∧
    (o < 4 → (noteStep pitch i o).toNat = pitch[i].toNat / 2 ^ (4 - o)) ∧
    (pitch[i].toNat < 2 ^ 28 → o ≤ 8 →
      (4 ≤ o → (noteStep pitch i o).toNat = pitch[i].toNat * 2 ^ (o - 4)) ∧
      (4 ≤ o → o < 8 → (noteStep pitch i (o + 1)).toNat = 2 * (noteStep pitch i o).toNat) ∧
      (o < 4 → (noteStep pitch i (o + 1)).toNat = 2 * (noteStep pitch i o).toNat ∨
        (noteStep pitch i (o + 1)).toNat = 2 * (noteStep pitch i o).toNat + 1))

/-- R152: `chordSum` is the exact sum over the active notes, 0 for none, does not decrease when notes are added, and stays below
`2^36` where `PITCH[i] < 2^28` and the octave is 0 to 8. -/
def Obligations.ChordSumIsExactMonotoneAndBounded : Prop :=
  ∀ (pitch : Vector Word32 12) (n : NoteBitmap) (o : Nat),
    chordSum pitch n o = (∑ i : Note, if n.getLsbD i.val then (noteStep pitch i o).toNat else 0) ∧
    chordSum pitch 0 o = 0 ∧
    (∀ m : NoteBitmap, (∀ i : Note, n.getLsbD i.val = true → m.getLsbD i.val = true) →
      chordSum pitch n o ≤ chordSum pitch m o) ∧
    ((∀ i : Note, pitch[i].toNat < 2 ^ 28) → o ≤ 8 →
      chordSum pitch n o ≤ 12 * (2 ^ 28 - 1) * 16 ∧ 12 * (2 ^ 28 - 1) * 16 < 2 ^ 36)

/-! ## Knobs -/

/-- R106: the sixteen patterns, prev then cur: the four named pairs give -1 or +1, every other pattern 0. -/
def Obligations.QuadratureTable : Prop :=
  ([(0b00, 0b00), (0b00, 0b01), (0b00, 0b10), (0b00, 0b11), (0b01, 0b00), (0b01, 0b01), (0b01, 0b10), (0b01, 0b11),
    (0b10, 0b00), (0b10, 0b01), (0b10, 0b10), (0b10, 0b11), (0b11, 0b00), (0b11, 0b01), (0b11, 0b10), (0b11, 0b11)] :
      List (BitVec 2 × BitVec 2)).map (fun x => quadDelta x.1 x.2) =
    [0, -1, 0, 0, 1, 0, 0, 0, 0, 0, 0, 1, 0, 0, -1, 0]

/-- R106, R123 to R128, R130, entry 11: what each of the sixteen patterns does at the decoder of any knob: its delta, then the knob's
policy (a slave's volume is forced to 0, any other accumulator is clamped to its range), the code remembered, the role set by
knob 3 alone, and nothing else changed. -/
def Obligations.QuadratureRowsTurnTheKnob : Prop :=
  ∀ (k : KnobId) (s : State), ∀ row ∈ ([
      (.qdec0000 k, 0, 0b00), (.qdec0001 k, -1, 0b01), (.qdec0010 k, 0, 0b10), (.qdec0011 k, 0, 0b11),
      (.qdec0100 k, 1, 0b00), (.qdec0101 k, 0, 0b01), (.qdec0110 k, 0, 0b10), (.qdec0111 k, 0, 0b11),
      (.qdec1000 k, 0, 0b00), (.qdec1001 k, 0, 0b01), (.qdec1010 k, 0, 0b10), (.qdec1011 k, 1, 0b11),
      (.qdec1100 k, 0, 0b00), (.qdec1101 k, 0, 0b01), (.qdec1110 k, -1, 0b10), (.qdec1111 k, 0, 0b11)] :
        List (Instr × Int × BitVec 2)),
    ∃ t, exec row.1 s = .next t ∧
      t = { s with knobs := s.knobs.set k (t.knob k), role := t.role } ∧
      (t.knob k).prev = row.2.2 ∧
      t.knobValue k =
        (if k = .vol ∧ s.role = .slave then 0
         else max (Config.knobMin k) (min (Config.knobMax k) (s.knobValue k + row.2.1))) ∧
      (k ≠ .ms → t.role = s.role) ∧ (k = .ms → (t.role = .master ↔ t.knobValue .ms ≠ 0))

/-- R105, R121: a knob's code is its two bits of the row snapshot, code bit B above code bit A; a row missing from the snapshot reads
`0xF` (entry 12: the model's choice). -/
def Obligations.KnobCodeIsItsTwoBits : Prop :=
  ∀ (s : State) (k : KnobId),
    (s.knobCode k).getLsbD 0 = (s.rows.getD (s.cfg.wiring.get k).row 0xF).getLsbD (s.cfg.wiring.get k).colA.val ∧
    (s.knobCode k).getLsbD 1 = (s.rows.getD (s.cfg.wiring.get k).row 0xF).getLsbD (s.cfg.wiring.get k).colB.val

/-- R109, R130: a knob's micro-step runs the QDEC row that the knob's previous code and its current code select. That a QDEC row is
what `KnobStep(k)` does on its pattern, with the knob as operand, is the model's reading (entry 11, DEDUCED). -/
def Obligations.KnobMicroStepRunsItsPattern : Prop :=
  ∀ s : State,
    (s.scanPos = .k0 → ∃ t, exec (decodeQdec .vol ((s.knob .vol).prev ++ s.knobCode .vol)) s = .next t ∧
      exec .scanK0 s = .next { t with scanPos := .k1 }) ∧
    (s.scanPos = .k1 → ∃ t, exec (decodeQdec .wave ((s.knob .wave).prev ++ s.knobCode .wave)) s = .next t ∧
      exec .scanK1 s = .next { t with scanPos := .k2 }) ∧
    (s.scanPos = .k2 → ∃ t, exec (decodeQdec .oct ((s.knob .oct).prev ++ s.knobCode .oct)) s = .next t ∧
      exec .scanK2 s = .next { t with scanPos := .notes }) ∧
    (s.scanPos = .role → ∃ t, exec (decodeQdec .ms ((s.knob .ms).prev ++ s.knobCode .ms)) s = .next t ∧
      exec .scanRole s = .next { t with roleHint := s.handshake, scanPos := .k0 })

/-- R131: over every sequence of codes the accumulator of every knob stays in its clamp range, and the four named pairs and no
others turn it. -/
def Obligations.CodeSequencesKeepTheKnobInRange : Prop :=
  (∀ prev cur : BitVec 2,
    (quadDelta prev cur = -1 ↔ (prev = 0b00 ∧ cur = 0b01) ∨ (prev = 0b11 ∧ cur = 0b10)) ∧
    (quadDelta prev cur = 1 ↔ (prev = 0b01 ∧ cur = 0b00) ∨ (prev = 0b10 ∧ cur = 0b11)) ∧
    (quadDelta prev cur = 0 ∨ quadDelta prev cur = 1 ∨ quadDelta prev cur = -1)) ∧
  ∀ (k : KnobId) (codes : List (BitVec 2)) (s : State),
    Config.knobMin k ≤ s.knobValue k → s.knobValue k ≤ Config.knobMax k →
    let t := codes.foldl (fun u c => turnKnob k (quadDelta (u.knob k).prev c) c u) s
    Config.knobMin k ≤ t.knobValue k ∧ t.knobValue k ≤ Config.knobMax k

/-! ## The Scanner -/

/-- R142: `SCAN.READ` sets all of `rows` to the words the environment gives and moves on; nothing else changes. That it also runs
at IDLE is the model's reading (entry 3, DEDUCED). -/
def Obligations.ScanReadResult : Prop :=
  ∀ (s : State) (rows : List Nibble), rows.length = s.cfg.nRows → s.scanPos = .idle ∨ s.scanPos = .read →
    exec (.scanRead rows) s = .next { s with rows := rows, scanPos := .role }

/-- R127, R128, R146: `SCAN.ROLE` decodes knob 3, the role follows its accumulator, the handshake bit sets only the hint, and
nothing else changes. -/
def Obligations.ScanRoleResult : Prop :=
  ∀ s : State, s.scanPos = .role → ∃ t, exec .scanRole s = .next t ∧
    t = { s with knobs := s.knobs.set .ms (t.knob .ms), role := t.role, roleHint := t.roleHint, scanPos := .k0 } ∧
    (t.knob .ms).prev = s.knobCode .ms ∧
    t.knobValue .ms = max 0 (min 1 (s.knobValue .ms + quadDelta (s.knob .ms).prev (s.knobCode .ms))) ∧
    (t.role = .master ↔ t.knobValue .ms ≠ 0) ∧
    (t.roleHint = true ↔ (s.rows.getD s.cfg.hsRow 0xF).getLsbD s.cfg.hsCol.val = false)

/-- R124, R125, R126, R128, R147: `SCAN.K0`, `SCAN.K1`, `SCAN.K2` decode their knob, each with its own policy, and change
nothing else. -/
def Obligations.KnobMicroStepsResult : Prop :=
  ∀ s : State,
    (s.scanPos = .k0 → ∃ t, exec .scanK0 s = .next t ∧
      t = { s with knobs := s.knobs.set .vol (t.knob .vol), scanPos := .k1 } ∧ (t.knob .vol).prev = s.knobCode .vol ∧
      t.knobValue .vol = if s.role = .slave then 0
        else max 0 (min 8 (s.knobValue .vol + quadDelta (s.knob .vol).prev (s.knobCode .vol)))) ∧
    (s.scanPos = .k1 → ∃ t, exec .scanK1 s = .next t ∧
      t = { s with knobs := s.knobs.set .wave (t.knob .wave), scanPos := .k2 } ∧ (t.knob .wave).prev = s.knobCode .wave ∧
      t.knobValue .wave = max 0 (min 1 (s.knobValue .wave + quadDelta (s.knob .wave).prev (s.knobCode .wave)))) ∧
    (s.scanPos = .k2 → ∃ t, exec .scanK2 s = .next t ∧
      t = { s with knobs := s.knobs.set .oct (t.knob .oct), scanPos := .notes } ∧ (t.knob .oct).prev = s.knobCode .oct ∧
      t.knobValue .oct = max 0 (min 8 (s.knobValue .oct + quadDelta (s.knob .oct).prev (s.knobCode .oct))))

/-- R143: bit `4*r + c` of the key mask is column `c` of row `r`. -/
def Obligations.KeyMaskLayout : Prop :=
  ∀ (rows : List Nibble) (r : Fin 3) (c : Fin 4),
    (keyMask rows).getLsbD (4 * r.val + c.val) = (rows.getD r.val 0xF).getLsbD c.val

/-- R144, R145, R148: the NoteBitmap is the complement of the key mask, the previous mask is replaced, the last difference in
scan order is the reported change, without a difference the old index and direction stay, and nothing else changes. -/
def Obligations.ScanNotesResult : Prop :=
  ∀ s : State, s.scanPos = .notes → ∃ t, exec .scanNotes s = .next t ∧
    t = { s with
      localNotes := ~~~keyMask s.rows, prevKeys := keyMask s.rows, chg := t.chg, chgIdx := t.chgIdx,
      chgPressed := t.chgPressed, scanPos := .merge } ∧
    (keyMask s.rows = s.prevKeys → t.chg = false ∧ t.chgIdx = s.chgIdx ∧ t.chgPressed = s.chgPressed) ∧
    (keyMask s.rows ≠ s.prevKeys → t.chg = true ∧ ∃ i : Note, t.chgIdx.toNat = i.val ∧
      (keyMask s.rows).getLsbD i.val ≠ s.prevKeys.getLsbD i.val ∧
      (∀ j : Note, i < j → (keyMask s.rows).getLsbD j.val = s.prevKeys.getLsbD j.val) ∧
      (t.chgPressed = true ↔ (keyMask s.rows).getLsbD i.val = false))

/-- R150: a master merges RemoteState's notes and octave, a slave clears the notes and keeps the octave; nothing else
changes. -/
def Obligations.ScanMergeResult : Prop :=
  ∀ s : State, s.scanPos = .merge →
    (s.role = .master →
      exec .scanMerge s = .next { s with merged := ⟨s.remote.rsNotes, s.remote.rsOct⟩, scanPos := .step }) ∧
    (s.role = .slave → exec .scanMerge s = .next { s with merged := ⟨0x000, s.merged.mOct⟩, scanPos := .step })

/-- R153: the step size is the sum of the two chord sums, each at its own octave, modulo `2^32`; nothing else changes. -/
def Obligations.ScanStepResult : Prop :=
  ∀ s : State, s.scanPos = .step → ∃ t, exec .scanStep s = .next t ∧
    t = { s with stepSize := t.stepSize, scanPos := .tx } ∧
    t.stepSize.toNat =
      (chordSum s.pitch s.localNotes s.octave + chordSum s.pitch s.merged.mNotes s.merged.mOct.toNat) % 2 ^ 32

/-- R171, R172, R174, R176: a slave with a change and room queues one frame, byte by byte; a master, or a slave without a
change, queues none; a slave with a change and a full queue is held (a hold is the unchanged state: entry 2, the model's choice). -/
def Obligations.ScanTxResult : Prop :=
  ∀ s : State, s.scanPos = .tx →
    (s.role = .master ∨ s.chg = false → exec .scanTx s = .next { s with scanPos := .idle }) ∧
    (s.role = .slave → s.chg = true → s.txq.length < s.cfg.txqDepth → ∃ f, exec .scanTx s =
        .next { s with txq := s.txq ++ [f], scanPos := .idle } ∧
      f.b0 = (if s.chgPressed then 80 else 82) ∧ f.b1.toNat = s.octave ∧ f.b2.toNat = s.chgIdx.toNat ∧
      f.b3.toNat = (keyMask s.rows).toNat % 2 ^ 6 ∧ f.b4.toNat = (keyMask s.rows).toNat / 2 ^ 6 ∧
      f.b5 = 0 ∧ f.b6 = 0 ∧ f.b7 = 0) ∧
    (s.role = .slave → s.chg = true → s.txq.length = s.cfg.txqDepth → exec .scanTx s = .next s)

/-- R94, R141: what a whole scan cycle leaves, from IDLE or READ: the snapshot, the notes, the merge by the new role, the step
size of the new notes at the new octave, and, with room in `txq` or nothing to send, at most one frame and IDLE again; with a
frame to send and no room the Scanner is left held at TX. The Sampler's registers, RemoteState and the queues' other ends are as
before. That a held part is skipped, and that `SCAN` runs from IDLE, is the model's choice (entries 2, 3, 13). -/
def Obligations.ScanCycleResult : Prop :=
  ∀ (s : State) (rows : List Nibble), rows.length = s.cfg.nRows → s.scanPos = .idle ∨ s.scanPos = .read →
    ∃ t, exec (.scan rows) s = .next t ∧ t.rows = rows ∧ t.prevKeys = keyMask rows ∧ t.localNotes = ~~~keyMask rows ∧
      (t.role = .master ↔ t.knobValue .ms ≠ 0) ∧
      (t.role = .slave → t.knobValue .vol = 0) ∧
      (t.chg = true ↔ keyMask rows ≠ s.prevKeys) ∧
      (t.role = .master → t.merged = ⟨s.remote.rsNotes, s.remote.rsOct⟩) ∧
      (t.role = .slave → t.merged = ⟨0, s.merged.mOct⟩) ∧
      t.stepSize.toNat =
        (chordSum s.pitch t.localNotes t.octave + chordSum s.pitch t.merged.mNotes t.merged.mOct.toNat) % 2 ^ 32 ∧
      (t.role = .master ∨ t.chg = false → t.txq = s.txq ∧ t.scanPos = .idle) ∧
      (t.role = .slave → t.chg = true → s.txq.length < s.cfg.txqDepth →
        t.txq = s.txq ++ [buildFrame (keyMask rows) t.octave t.chgIdx t.chgPressed] ∧ t.scanPos = .idle) ∧
      (t.role = .slave → t.chg = true → s.cfg.txqDepth ≤ s.txq.length → t.txq = s.txq ∧ t.scanPos = .tx) ∧
      t = { s with
        knobs := t.knobs, role := t.role, roleHint := t.roleHint, rows := t.rows, prevKeys := t.prevKeys,
        localNotes := t.localNotes, chg := t.chg, chgIdx := t.chgIdx, chgPressed := t.chgPressed, merged := t.merged,
        stepSize := t.stepSize, txq := t.txq, scanPos := t.scanPos }

/-! ## The bus -/

/-- R102, R172, R177: every frame built of octave 0 to 8 and key index 0 to 11 is well-formed, and decoding it gives back the
complement of the mask, the octave and the tag of its direction. The spec marks both clauses as derived. -/
def Obligations.FrameRoundTrip : Prop :=
  ∀ (keys : KeyMask) (octave : Nat) (chgIdx : Nibble) (chgPressed : Bool), octave ≤ 8 → chgIdx.toNat ≤ 11 →
    (buildFrame keys octave chgIdx chgPressed).wellFormed = true ∧
    (decodeFrame (buildFrame keys octave chgIdx chgPressed)).rsNotes = ~~~keys ∧
    (decodeFrame (buildFrame keys octave chgIdx chgPressed)).rsOct.toNat = octave ∧
    (decodeFrame (buildFrame keys octave chgIdx chgPressed)).rsTag = (if chgPressed then .pressed else .released)

/-- R179: a frame with the block's identifier enters `rxq` if there is room; any other is discarded; never a hold, and nothing
else changes. -/
def Obligations.RxpushResult : Prop :=
  ∀ (s : State) (id : Nat) (data : Frame),
    (id = s.cfg.busId → s.rxq.length < s.cfg.rxqDepth →
      exec (.rxpush id data) s = .next { s with rxq := s.rxq ++ [data] }) ∧
    (id ≠ s.cfg.busId ∨ s.cfg.rxqDepth ≤ s.rxq.length → exec (.rxpush id data) s = .next s)

/-- R102, R180, R181: `DECODE` takes the head of `rxq`; a well-formed frame replaces the whole of RemoteState, a malformed one
changes nothing more, and with nothing queued the Decoder is held (a hold is the unchanged state: entry 2, the model's choice). -/
def Obligations.DecodeResult : Prop :=
  ∀ s : State,
    (s.rxq = [] → exec .decode s = .next s) ∧
    (∀ f rest, s.rxq = f :: rest →
      ((f.b0 = 80 ∨ f.b0 = 82) ∧ f.b1.toNat ≤ 8 ∧ f.b2.toNat ≤ 11 ∧ f.b3.toNat ≤ 63 ∧ f.b4.toNat ≤ 63 →
        ∃ t, exec .decode s = .next t ∧ t = { s with rxq := rest, remote := t.remote } ∧
          t.remote.rsNotes.toNat = 0xFFF - (f.b4.toNat * 2 ^ 6 + f.b3.toNat) ∧ t.remote.rsOct.toNat = f.b1.toNat ∧
          t.remote.rsTag = (if f.b0 = 80 then .pressed else .released)) ∧
      (¬((f.b0 = 80 ∨ f.b0 = 82) ∧ f.b1.toNat ≤ 8 ∧ f.b2.toNat ≤ 11 ∧ f.b3.toNat ≤ 63 ∧ f.b4.toNat ≤ 63) →
        exec .decode s = .next { s with rxq := rest }))

/-- R180, R181, entry 8: what a press or a release frame does when the Decoder has taken it: RemoteState is replaced by its
notes, octave and type, and nothing else changes; out of range it changes nothing. -/
def Obligations.FrameRowsReplaceRemoteState : Prop :=
  ∀ (s : State) (o k : Nibble) (lo hi : BitVec 6) (p5 p6 p7 : Byte),
    (o.toNat ≤ 8 ∧ k.toNat ≤ 11 →
      exec (.framePress o k lo hi p5 p6 p7) s = .next { s with remote := ⟨~~~(hi ++ lo), o, .pressed⟩ } ∧
      exec (.frameRelease o k lo hi p5 p6 p7) s = .next { s with remote := ⟨~~~(hi ++ lo), o, .released⟩ }) ∧
    (¬(o.toNat ≤ 8 ∧ k.toNat ≤ 11) →
      exec (.framePress o k lo hi p5 p6 p7) s = .next s ∧ exec (.frameRelease o k lo hi p5 p6 p7) s = .next s)

/-- R181, entry 8: `DECODE` runs the frame that the head of `rxq` decodes to; a malformed one is only taken. -/
def Obligations.DecodeRunsTheFrame : Prop :=
  ∀ (s : State) (f : Frame) (rest : List Frame), s.rxq = f :: rest →
    (∀ i, decode s.cfg s.wave (.frame f) = .ok i → exec .decode s = exec i { s with rxq := rest }) ∧
    (∀ e, decode s.cfg s.wave (.frame f) = .error e → exec .decode s = .next { s with rxq := rest })

/-- R186: `TXPOP` moves the head of `txq` into the empty `txHold`, and is held otherwise (a hold is the unchanged state: entry 2, the
model's choice). -/
def Obligations.TxpopResult : Prop :=
  ∀ s : State,
    (∀ f rest, s.txHold = none → s.txq = f :: rest → exec .txpop s = .next { s with txq := rest, txHold := some f }) ∧
    (s.txHold ≠ none ∨ s.txq = [] → exec .txpop s = .next s)

/-- R187: `TXSEND` takes a permit, emits the held frame with `BUS_ID` and empties `txHold`, and is held otherwise (a hold is the
unchanged state: entry 2; the output is a log in the state: entry 9; both the model's choice). -/
def Obligations.TxsendResult : Prop :=
  ∀ s : State,
    (∀ f, s.txHold = some f → 0 < s.txPermits → exec .txsend s = .next { s with
      txPermits := s.txPermits - 1, emitted := s.emitted ++ [⟨s.cfg.busId, f⟩], txHold := none }) ∧
    (s.txHold = none ∨ s.txPermits = 0 → exec .txsend s = .next s)

/-- R188: `TXDONE` gives a permit back; with every permit free it is ignored. -/
def Obligations.TxdoneResult : Prop :=
  ∀ s : State,
    (s.txPermits < s.cfg.txSlots → exec .txdone s = .next { s with txPermits := s.txPermits + 1 }) ∧
    (s.cfg.txSlots ≤ s.txPermits → exec .txdone s = .next s)

/-- R94, R186, R187: `TX` with a frame queued, `txHold` empty and a permit free emits the head of `txq`. That `TX` is one operation
and the output a log is the model's choice (entries 9, 13). -/
def Obligations.TxResult : Prop :=
  ∀ (s : State) (f : Frame) (rest : List Frame), s.txHold = none → s.txq = f :: rest → 0 < s.txPermits →
    exec .tx s = .next { s with
      txq := rest, txPermits := s.txPermits - 1, emitted := s.emitted ++ [⟨s.cfg.busId, f⟩] }

/-- R176, R177, R179, R181: the notes and the octave of a slave board reach its partner whole: the frame its `SCAN.TX` queues,
pushed to a partner with room and decoded there, leaves the slave's NoteBitmap and octave in the partner's RemoteState. Two boards
are two states, and the bus between them is outside the model (entry 19: the model's choice). -/
def Obligations.SlaveNotesReachThePartner : Prop :=
  ∀ (a b : State), BlockInvariant a → a.scanPos = .tx → a.role = .slave → a.chg = true → a.txq.length < a.cfg.txqDepth →
    b.cfg.busId = a.cfg.busId → b.rxq = [] → 1 ≤ b.cfg.rxqDepth →
    ∃ f a' b₁ b₂, exec .scanTx a = .next a' ∧ a'.txq = a.txq ++ [f] ∧
      exec (.rxpush a.cfg.busId f) b = .next b₁ ∧ exec .decode b₁ = .next b₂ ∧
      b₂.rxq = [] ∧ b₂.remote.rsNotes = a.localNotes ∧ b₂.remote.rsOct.toNat = a.octave

/-! ## Rules of the whole block -/

/-- R26, R27, R35, R45, R47: the read-only outputs show the registers they are wired to; R277: after `SCAN.READ` the display sees
the `rows` of the new cycle with everything else, `localNotes` among it, of the old one. -/
def Obligations.OutputsShowTheRegisters : Prop :=
  ∀ s : State,
    (s.roleMismatch = true ↔ ¬(s.role = .master ↔ s.roleHint = true)) ∧
    s.display.localNotes = s.localNotes ∧ s.display.remoteNotes = s.merged.mNotes ∧ s.display.wave = s.wave ∧
    s.display.octave = s.octave ∧ s.display.volume = s.volume ∧ s.display.role = s.role ∧
    s.display.roleHint = s.roleHint ∧ s.display.roleMismatch = s.roleMismatch ∧ s.display.rows = s.rows ∧
    s.display.rsTag = s.remote.rsTag ∧
    ∀ rows : List Nibble, rows.length = s.cfg.nRows → s.scanPos = .read →
      ∃ t, exec (.scanRead rows) s = .next t ∧ t.display = { s.display with rows := rows }

/-- R47, R22 to R32: among the operations of the agents and of the environment, each register of the Scanner is written by
the operations its rule names and by no other. (`SCAN` is the Scanner's micro-steps, so it is named beside them.) -/
def Obligations.ScannerRegistersHaveTheirWriters : Prop :=
  ∀ (i : Instr) (s t : State) (digits : List Nibble), encode s.cfg i = .line digits → exec i s = .next t → i ≠ .reset →
    (∀ rows, i ≠ .scan rows) →
    (i ≠ .scanRole → t.role = s.role ∧ t.roleHint = s.roleHint ∧ t.knob .ms = s.knob .ms) ∧
    (i ≠ .scanK0 → t.knob .vol = s.knob .vol) ∧
    (i ≠ .scanK1 → t.knob .wave = s.knob .wave) ∧
    (i ≠ .scanK2 → t.knob .oct = s.knob .oct) ∧
    ((∀ rows, i ≠ .scanRead rows) → t.rows = s.rows) ∧
    (i ≠ .scanNotes → t.localNotes = s.localNotes ∧ t.prevKeys = s.prevKeys ∧ t.chg = s.chg ∧ t.chgIdx = s.chgIdx ∧
      t.chgPressed = s.chgPressed) ∧
    (i ≠ .scanMerge → t.merged = s.merged) ∧
    (i ≠ .scanStep → t.stepSize = s.stepSize)

/-- R47, R33 to R40: the same for the Sampler's registers, RemoteState, the queues, the permits and the tables. No operation at
all writes the parameters or the input to come, and `RESET` keeps the output so far (entries 1, 4, 5, 9: the model's choice). -/
def Obligations.OtherRegistersHaveTheirWriters : Prop :=
  ∀ (i : Instr) (s t : State) (digits : List Nibble), encode s.cfg i = .line digits → exec i s = .next t →
    t.cfg = s.cfg ∧ t.trace = s.trace ∧ (i = .reset → t.emitted = s.emitted) ∧
    (i ≠ .reset →
      (i ≠ .sampleSaw → i ≠ .sampleSine → (∀ n, i ≠ .sampleN n) → t.phaseAcc = s.phaseAcc ∧ t.dacOut = s.dacOut) ∧
      (i ≠ .decode → t.remote = s.remote) ∧
      (i ≠ .decode → (∀ id f, i ≠ .rxpush id f) → t.rxq = s.rxq) ∧
      (i ≠ .scanTx → (∀ rows, i ≠ .scan rows) → i ≠ .txpop → i ≠ .tx → t.txq = s.txq) ∧
      (i ≠ .txpop → i ≠ .txsend → i ≠ .tx → t.txHold = s.txHold) ∧
      (i ≠ .txsend → i ≠ .tx → i ≠ .txdone → t.txPermits = s.txPermits) ∧
      (i ≠ .txsend → i ≠ .tx → t.emitted = s.emitted) ∧
      t.pitch = s.pitch ∧ t.lut = s.lut)

/-- R81, R187: frames leave in the order they were built, none lost and none duplicated: every operation but `RESET` leaves the
line of outbound frames as it is or appends one, and only `SCAN.TX` appends. The output log is the model's (entry 9). -/
def Obligations.OutboundFramesKeepTheirOrder : Prop :=
  ∀ (i : Instr) (s t : State), i ≠ .reset → exec i s = .next t →
    outbound t = outbound s ∨
      ((i = .scanTx ∨ ∃ rows, i = .scan rows) ∧
        outbound t = outbound s ++ [buildFrame (keyMask t.rows) t.octave t.chgIdx t.chgPressed])

/-- R81, R181: the inbound queue is first-in first-out: an operation leaves it, or `RXPUSH` appends its frame, or `DECODE` takes
the head. -/
def Obligations.InboundFramesKeepTheirOrder : Prop :=
  ∀ (i : Instr) (s t : State), i ≠ .reset → exec i s = .next t →
    t.rxq = s.rxq ∨ (∃ id f, i = .rxpush id f ∧ t.rxq = s.rxq ++ [f]) ∨ (i = .decode ∧ ∃ f, s.rxq = f :: t.rxq)

/-- R176, R276: while `SCAN.TX` is held by a full `txq`, no operation but `TXPOP` (alone or in `TX`) and `RESET` lets the
Scanner go on: its position, the knobs, the role, the notes and the step size are frozen. (Its own lines are holds: entry 2.) -/
def Obligations.HeldScannerIsFrozen : Prop :=
  ∀ (i : Instr) (s t : State) (digits : List Nibble), encode s.cfg i = .line digits → exec i s = .next t →
    s.scanPos = .tx → s.role = .slave → s.chg = true → s.txq.length = s.cfg.txqDepth →
    i ≠ .txpop → i ≠ .tx → i ≠ .reset →
      t.scanPos = .tx ∧ t.txq = s.txq ∧ t.knobs = s.knobs ∧ t.role = s.role ∧ t.chg = s.chg ∧ t.rows = s.rows ∧
      t.localNotes = s.localNotes ∧ t.merged = s.merged ∧ t.stepSize = s.stepSize

/-- R24, R46: the invariant holds at reset. Its configuration part rests on the model's choices: the default tables and matrix map
(entry 17, PRESUMED), `KNOB_RESET[3] = 0` among the constraints (entry 5), the open parameters (entry 6) and the width of an
identifier (entry 7). -/
def Obligations.ResetSatisfiesTheInvariant : Prop := BlockInvariant State.reset

/-- R24 and the ranges of R22 to R42: every step, on any input whatever, keeps the invariant. `KNOB_RESET[3] = 0` and the width of an
identifier, among the constraints on the parameters, are the model's choices (entries 5 and 7). -/
def Obligations.EveryStepKeepsTheInvariant : Prop := ∀ s t : State, BlockInvariant s → step s = .next t → BlockInvariant t
end

