-- ==== Sys2Proof/Laws/PerInstr.lean ====
section
/-! SUPPORT. The family CodeFormat: how many hexadecimal digits the word of each operation has (30_encoding.md R90, R93), one lemma
for each constructor of Instr. -/

namespace Sys2Proof.Laws

/-- The digits of a word: a trace line's own, 16 for a frame of 8 bytes, 1 for a pattern (30_encoding.md R90). -/
def wordDigits : CodeWord → Nat
  | .line ds => ds.length
  | .frame _ => 16
  | .qdec _ _ => 1

/-- The digits 30_encoding.md R90, R93 and R94 give each operation. -/
def ruleDigits (c : Config) : Instr → Nat
  | .reset => 1
  | .sampleSaw => 1
  | .sampleSine => 1
  | .scanRead _ => 1 + c.nRows
  | .scanRole => 1
  | .scanK0 => 1
  | .scanK1 => 1
  | .scanK2 => 1
  | .scanNotes => 1
  | .scanMerge => 1
  | .scanStep => 1
  | .scanTx => 1
  | .rxpush _ _ => 1 + c.busIdDigits + 16
  | .decode => 1
  | .txpop => 1
  | .txsend => 1
  | .txdone => 1
  | .framePress _ _ _ _ _ _ _ => 16
  | .frameRelease _ _ _ _ _ _ _ => 16
  | .qdec0000 _ => 1
  | .qdec0001 _ => 1
  | .qdec0010 _ => 1
  | .qdec0011 _ => 1
  | .qdec0100 _ => 1
  | .qdec0101 _ => 1
  | .qdec0110 _ => 1
  | .qdec0111 _ => 1
  | .qdec1000 _ => 1
  | .qdec1001 _ => 1
  | .qdec1010 _ => 1
  | .qdec1011 _ => 1
  | .qdec1100 _ => 1
  | .qdec1101 _ => 1
  | .qdec1110 _ => 1
  | .qdec1111 _ => 1
  | .scan _ => 1 + c.nRows + 8
  | .tx => 2
  | .sampleN n => n

/-- Every identifier width gives that many digits. -/
theorem length_digitsOf (n v : Nat) : (digitsOf n v).length = n := by
  induction n with
  | zero => rfl
  | succ n ih => simp [digitsOf, ih]

theorem length_digitsOfFrame (f : Frame) : (digitsOfFrame f).length = 16 := rfl

/-- The word of a well-formed operation has the digits the rules give it. -/
def CodeFormat.Statement (i : Instr) : Prop :=
  ∀ c : Config, i.wellFormed c = true → wordDigits (encode c i) = ruleDigits c i

namespace CodeFormat

theorem reset : Statement .reset := fun _ _ => rfl

theorem sampleSaw : Statement .sampleSaw := fun _ _ => rfl

theorem sampleSine : Statement .sampleSine := fun _ _ => rfl

theorem scanRead (rows : List Nibble) : Statement (.scanRead rows) := by
  intro c h
  have h' : rows.length = c.nRows := by simpa [Instr.wellFormed] using h
  simp [wordDigits, encode, ruleDigits, h']; omega

theorem scanRole : Statement .scanRole := fun _ _ => rfl

theorem scanK0 : Statement .scanK0 := fun _ _ => rfl

theorem scanK1 : Statement .scanK1 := fun _ _ => rfl

theorem scanK2 : Statement .scanK2 := fun _ _ => rfl

theorem scanNotes : Statement .scanNotes := fun _ _ => rfl

theorem scanMerge : Statement .scanMerge := fun _ _ => rfl

theorem scanStep : Statement .scanStep := fun _ _ => rfl

theorem scanTx : Statement .scanTx := fun _ _ => rfl

theorem rxpush (id : Nat) (f : Frame) : Statement (.rxpush id f) := by
  intro c _
  simp [wordDigits, encode, ruleDigits, length_digitsOf, length_digitsOfFrame]; omega

theorem decode : Statement .decode := fun _ _ => rfl

theorem txpop : Statement .txpop := fun _ _ => rfl

theorem txsend : Statement .txsend := fun _ _ => rfl

theorem txdone : Statement .txdone := fun _ _ => rfl

theorem framePress (o k : Nibble) (lo hi : BitVec 6) (p5 p6 p7 : Byte) : Statement (.framePress o k lo hi p5 p6 p7) := fun _ _ => rfl

theorem frameRelease (o k : Nibble) (lo hi : BitVec 6) (p5 p6 p7 : Byte) : Statement (.frameRelease o k lo hi p5 p6 p7) := fun _ _ => rfl

theorem qdec0000 (k : KnobId) : Statement (.qdec0000 k) := fun _ _ => rfl

theorem qdec0001 (k : KnobId) : Statement (.qdec0001 k) := fun _ _ => rfl

theorem qdec0010 (k : KnobId) : Statement (.qdec0010 k) := fun _ _ => rfl

theorem qdec0011 (k : KnobId) : Statement (.qdec0011 k) := fun _ _ => rfl

theorem qdec0100 (k : KnobId) : Statement (.qdec0100 k) := fun _ _ => rfl

theorem qdec0101 (k : KnobId) : Statement (.qdec0101 k) := fun _ _ => rfl

theorem qdec0110 (k : KnobId) : Statement (.qdec0110 k) := fun _ _ => rfl

theorem qdec0111 (k : KnobId) : Statement (.qdec0111 k) := fun _ _ => rfl

theorem qdec1000 (k : KnobId) : Statement (.qdec1000 k) := fun _ _ => rfl

theorem qdec1001 (k : KnobId) : Statement (.qdec1001 k) := fun _ _ => rfl

theorem qdec1010 (k : KnobId) : Statement (.qdec1010 k) := fun _ _ => rfl

theorem qdec1011 (k : KnobId) : Statement (.qdec1011 k) := fun _ _ => rfl

theorem qdec1100 (k : KnobId) : Statement (.qdec1100 k) := fun _ _ => rfl

theorem qdec1101 (k : KnobId) : Statement (.qdec1101 k) := fun _ _ => rfl

theorem qdec1110 (k : KnobId) : Statement (.qdec1110 k) := fun _ _ => rfl

theorem qdec1111 (k : KnobId) : Statement (.qdec1111 k) := fun _ _ => rfl

theorem scan (rows : List Nibble) : Statement (.scan rows) := by
  intro c h
  have h' : rows.length = c.nRows := by simpa [Instr.wellFormed] using h
  simp [wordDigits, encode, ruleDigits, scanTail, h']; omega

theorem tx : Statement .tx := fun _ _ => rfl

theorem sampleN (n : Nat) : Statement (.sampleN n) := by
  intro c _
  simp [wordDigits, encode, ruleDigits]

end CodeFormat
end Sys2Proof.Laws
end

