-- ==== Sys2Proof/Laws/State.lean ====
section
/-! SUPPORT. The state's small lemmas: a knob read after a knob written, the fields after reset, and the fields each shared
operation leaves alone. -/

namespace Sys2Proof

@[simp] theorem PerKnob.get_set_self {α : Type} (p : PerKnob α) (k : KnobId) (a : α) : (p.set k a).get k = a := by
  cases k <;> rfl

theorem PerKnob.get_set_of_ne {α : Type} (p : PerKnob α) {k j : KnobId} (a : α) (h : j ≠ k) :
    (p.set k a).get j = p.get j := by
  cases k <;> cases j <;> first | rfl | exact absurd rfl h

theorem PerKnob.get_set {α : Type} (p : PerKnob α) (k j : KnobId) (a : α) :
    (p.set k a).get j = if j = k then a else p.get j := by
  cases k <;> cases j <;> rfl

@[simp] theorem PerKnob.set_get_self {α : Type} (p : PerKnob α) (k : KnobId) : p.set k (p.get k) = p := by
  cases k <;> rfl

namespace Machine

/-! ### Reset -/

@[simp] theorem afterReset_cfg (c : Config) (e : List TxEvent) (tr : List TraceEntry) : (State.afterReset c e tr).cfg = c := rfl
@[simp] theorem afterReset_role (c : Config) (e : List TxEvent) (tr : List TraceEntry) : (State.afterReset c e tr).role = .slave := rfl
@[simp] theorem afterReset_roleHint (c : Config) (e : List TxEvent) (tr : List TraceEntry) : (State.afterReset c e tr).roleHint = false := rfl
@[simp] theorem afterReset_rows (c : Config) (e : List TxEvent) (tr : List TraceEntry) : (State.afterReset c e tr).rows = List.replicate c.nRows 0xF := rfl
@[simp] theorem afterReset_prevKeys (c : Config) (e : List TxEvent) (tr : List TraceEntry) : (State.afterReset c e tr).prevKeys = 0xFFF := rfl
@[simp] theorem afterReset_localNotes (c : Config) (e : List TxEvent) (tr : List TraceEntry) : (State.afterReset c e tr).localNotes = 0x000 := rfl
@[simp] theorem afterReset_chg (c : Config) (e : List TxEvent) (tr : List TraceEntry) : (State.afterReset c e tr).chg = false := rfl
@[simp] theorem afterReset_chgIdx (c : Config) (e : List TxEvent) (tr : List TraceEntry) : (State.afterReset c e tr).chgIdx = 0 := rfl
@[simp] theorem afterReset_chgPressed (c : Config) (e : List TxEvent) (tr : List TraceEntry) : (State.afterReset c e tr).chgPressed = false := rfl
@[simp] theorem afterReset_merged (c : Config) (e : List TxEvent) (tr : List TraceEntry) : (State.afterReset c e tr).merged = ⟨0x000, 0⟩ := rfl
@[simp] theorem afterReset_stepSize (c : Config) (e : List TxEvent) (tr : List TraceEntry) : (State.afterReset c e tr).stepSize = 0 := rfl
@[simp] theorem afterReset_phaseAcc (c : Config) (e : List TxEvent) (tr : List TraceEntry) : (State.afterReset c e tr).phaseAcc = 0 := rfl
@[simp] theorem afterReset_dacOut (c : Config) (e : List TxEvent) (tr : List TraceEntry) : (State.afterReset c e tr).dacOut = 128 := rfl
@[simp] theorem afterReset_remote (c : Config) (e : List TxEvent) (tr : List TraceEntry) : (State.afterReset c e tr).remote = ⟨0x000, 0, .none⟩ := rfl
@[simp] theorem afterReset_txq (c : Config) (e : List TxEvent) (tr : List TraceEntry) : (State.afterReset c e tr).txq = [] := rfl
@[simp] theorem afterReset_txHold (c : Config) (e : List TxEvent) (tr : List TraceEntry) : (State.afterReset c e tr).txHold = none := rfl
@[simp] theorem afterReset_txPermits (c : Config) (e : List TxEvent) (tr : List TraceEntry) : (State.afterReset c e tr).txPermits = c.txSlots := rfl
@[simp] theorem afterReset_rxq (c : Config) (e : List TxEvent) (tr : List TraceEntry) : (State.afterReset c e tr).rxq = [] := rfl
@[simp] theorem afterReset_scanPos (c : Config) (e : List TxEvent) (tr : List TraceEntry) : (State.afterReset c e tr).scanPos = .idle := rfl
@[simp] theorem afterReset_pitch (c : Config) (e : List TxEvent) (tr : List TraceEntry) : (State.afterReset c e tr).pitch = c.pitch := rfl
@[simp] theorem afterReset_lut (c : Config) (e : List TxEvent) (tr : List TraceEntry) : (State.afterReset c e tr).lut = c.lut := rfl
@[simp] theorem afterReset_emitted (c : Config) (e : List TxEvent) (tr : List TraceEntry) : (State.afterReset c e tr).emitted = e := rfl
@[simp] theorem afterReset_trace (c : Config) (e : List TxEvent) (tr : List TraceEntry) : (State.afterReset c e tr).trace = tr := rfl
@[simp] theorem afterReset_knob (c : Config) (e : List TxEvent) (tr : List TraceEntry) (k : KnobId) :
    (State.afterReset c e tr).knob k = ⟨0, c.knobReset.get k⟩ := by
  cases k <;> rfl

/-! ### What the shared operations leave alone -/

@[simp] theorem hold_eq (s : State) : hold s = s := rfl

@[simp] theorem turnKnob_cfg (k : KnobId) (d : Int) (cur : BitVec 2) (s : State) : (turnKnob k d cur s).cfg = s.cfg := rfl
@[simp] theorem turnKnob_roleHint (k : KnobId) (d : Int) (cur : BitVec 2) (s : State) : (turnKnob k d cur s).roleHint = s.roleHint := rfl
@[simp] theorem turnKnob_rows (k : KnobId) (d : Int) (cur : BitVec 2) (s : State) : (turnKnob k d cur s).rows = s.rows := rfl
@[simp] theorem turnKnob_prevKeys (k : KnobId) (d : Int) (cur : BitVec 2) (s : State) : (turnKnob k d cur s).prevKeys = s.prevKeys := rfl
@[simp] theorem turnKnob_localNotes (k : KnobId) (d : Int) (cur : BitVec 2) (s : State) : (turnKnob k d cur s).localNotes = s.localNotes := rfl
@[simp] theorem turnKnob_chg (k : KnobId) (d : Int) (cur : BitVec 2) (s : State) : (turnKnob k d cur s).chg = s.chg := rfl
@[simp] theorem turnKnob_chgIdx (k : KnobId) (d : Int) (cur : BitVec 2) (s : State) : (turnKnob k d cur s).chgIdx = s.chgIdx := rfl
@[simp] theorem turnKnob_chgPressed (k : KnobId) (d : Int) (cur : BitVec 2) (s : State) : (turnKnob k d cur s).chgPressed = s.chgPressed := rfl
@[simp] theorem turnKnob_merged (k : KnobId) (d : Int) (cur : BitVec 2) (s : State) : (turnKnob k d cur s).merged = s.merged := rfl
@[simp] theorem turnKnob_stepSize (k : KnobId) (d : Int) (cur : BitVec 2) (s : State) : (turnKnob k d cur s).stepSize = s.stepSize := rfl
@[simp] theorem turnKnob_phaseAcc (k : KnobId) (d : Int) (cur : BitVec 2) (s : State) : (turnKnob k d cur s).phaseAcc = s.phaseAcc := rfl
@[simp] theorem turnKnob_dacOut (k : KnobId) (d : Int) (cur : BitVec 2) (s : State) : (turnKnob k d cur s).dacOut = s.dacOut := rfl
@[simp] theorem turnKnob_remote (k : KnobId) (d : Int) (cur : BitVec 2) (s : State) : (turnKnob k d cur s).remote = s.remote := rfl
@[simp] theorem turnKnob_txq (k : KnobId) (d : Int) (cur : BitVec 2) (s : State) : (turnKnob k d cur s).txq = s.txq := rfl
@[simp] theorem turnKnob_txHold (k : KnobId) (d : Int) (cur : BitVec 2) (s : State) : (turnKnob k d cur s).txHold = s.txHold := rfl
@[simp] theorem turnKnob_txPermits (k : KnobId) (d : Int) (cur : BitVec 2) (s : State) : (turnKnob k d cur s).txPermits = s.txPermits := rfl
@[simp] theorem turnKnob_rxq (k : KnobId) (d : Int) (cur : BitVec 2) (s : State) : (turnKnob k d cur s).rxq = s.rxq := rfl
@[simp] theorem turnKnob_scanPos (k : KnobId) (d : Int) (cur : BitVec 2) (s : State) : (turnKnob k d cur s).scanPos = s.scanPos := rfl
@[simp] theorem turnKnob_pitch (k : KnobId) (d : Int) (cur : BitVec 2) (s : State) : (turnKnob k d cur s).pitch = s.pitch := rfl
@[simp] theorem turnKnob_lut (k : KnobId) (d : Int) (cur : BitVec 2) (s : State) : (turnKnob k d cur s).lut = s.lut := rfl
@[simp] theorem turnKnob_emitted (k : KnobId) (d : Int) (cur : BitVec 2) (s : State) : (turnKnob k d cur s).emitted = s.emitted := rfl
@[simp] theorem turnKnob_trace (k : KnobId) (d : Int) (cur : BitVec 2) (s : State) : (turnKnob k d cur s).trace = s.trace := rfl

@[simp] theorem knobStep_cfg (k : KnobId) (s : State) : (knobStep k s).cfg = s.cfg := rfl
@[simp] theorem knobStep_roleHint (k : KnobId) (s : State) : (knobStep k s).roleHint = s.roleHint := rfl
@[simp] theorem knobStep_rows (k : KnobId) (s : State) : (knobStep k s).rows = s.rows := rfl
@[simp] theorem knobStep_prevKeys (k : KnobId) (s : State) : (knobStep k s).prevKeys = s.prevKeys := rfl
@[simp] theorem knobStep_localNotes (k : KnobId) (s : State) : (knobStep k s).localNotes = s.localNotes := rfl
@[simp] theorem knobStep_chg (k : KnobId) (s : State) : (knobStep k s).chg = s.chg := rfl
@[simp] theorem knobStep_chgIdx (k : KnobId) (s : State) : (knobStep k s).chgIdx = s.chgIdx := rfl
@[simp] theorem knobStep_chgPressed (k : KnobId) (s : State) : (knobStep k s).chgPressed = s.chgPressed := rfl
@[simp] theorem knobStep_merged (k : KnobId) (s : State) : (knobStep k s).merged = s.merged := rfl
@[simp] theorem knobStep_stepSize (k : KnobId) (s : State) : (knobStep k s).stepSize = s.stepSize := rfl
@[simp] theorem knobStep_phaseAcc (k : KnobId) (s : State) : (knobStep k s).phaseAcc = s.phaseAcc := rfl
@[simp] theorem knobStep_dacOut (k : KnobId) (s : State) : (knobStep k s).dacOut = s.dacOut := rfl
@[simp] theorem knobStep_remote (k : KnobId) (s : State) : (knobStep k s).remote = s.remote := rfl
@[simp] theorem knobStep_txq (k : KnobId) (s : State) : (knobStep k s).txq = s.txq := rfl
@[simp] theorem knobStep_txHold (k : KnobId) (s : State) : (knobStep k s).txHold = s.txHold := rfl
@[simp] theorem knobStep_txPermits (k : KnobId) (s : State) : (knobStep k s).txPermits = s.txPermits := rfl
@[simp] theorem knobStep_rxq (k : KnobId) (s : State) : (knobStep k s).rxq = s.rxq := rfl
@[simp] theorem knobStep_scanPos (k : KnobId) (s : State) : (knobStep k s).scanPos = s.scanPos := rfl
@[simp] theorem knobStep_pitch (k : KnobId) (s : State) : (knobStep k s).pitch = s.pitch := rfl
@[simp] theorem knobStep_lut (k : KnobId) (s : State) : (knobStep k s).lut = s.lut := rfl
@[simp] theorem knobStep_emitted (k : KnobId) (s : State) : (knobStep k s).emitted = s.emitted := rfl
@[simp] theorem knobStep_trace (k : KnobId) (s : State) : (knobStep k s).trace = s.trace := rfl

@[simp] theorem sawStep_cfg (s : State) : (sawStep s).cfg = s.cfg := rfl
@[simp] theorem sawStep_knobs (s : State) : (sawStep s).knobs = s.knobs := rfl
@[simp] theorem sawStep_role (s : State) : (sawStep s).role = s.role := rfl
@[simp] theorem sawStep_roleHint (s : State) : (sawStep s).roleHint = s.roleHint := rfl
@[simp] theorem sawStep_rows (s : State) : (sawStep s).rows = s.rows := rfl
@[simp] theorem sawStep_prevKeys (s : State) : (sawStep s).prevKeys = s.prevKeys := rfl
@[simp] theorem sawStep_localNotes (s : State) : (sawStep s).localNotes = s.localNotes := rfl
@[simp] theorem sawStep_chg (s : State) : (sawStep s).chg = s.chg := rfl
@[simp] theorem sawStep_chgIdx (s : State) : (sawStep s).chgIdx = s.chgIdx := rfl
@[simp] theorem sawStep_chgPressed (s : State) : (sawStep s).chgPressed = s.chgPressed := rfl
@[simp] theorem sawStep_merged (s : State) : (sawStep s).merged = s.merged := rfl
@[simp] theorem sawStep_stepSize (s : State) : (sawStep s).stepSize = s.stepSize := rfl
@[simp] theorem sawStep_remote (s : State) : (sawStep s).remote = s.remote := rfl
@[simp] theorem sawStep_txq (s : State) : (sawStep s).txq = s.txq := rfl
@[simp] theorem sawStep_txHold (s : State) : (sawStep s).txHold = s.txHold := rfl
@[simp] theorem sawStep_txPermits (s : State) : (sawStep s).txPermits = s.txPermits := rfl
@[simp] theorem sawStep_rxq (s : State) : (sawStep s).rxq = s.rxq := rfl
@[simp] theorem sawStep_scanPos (s : State) : (sawStep s).scanPos = s.scanPos := rfl
@[simp] theorem sawStep_pitch (s : State) : (sawStep s).pitch = s.pitch := rfl
@[simp] theorem sawStep_lut (s : State) : (sawStep s).lut = s.lut := rfl
@[simp] theorem sawStep_emitted (s : State) : (sawStep s).emitted = s.emitted := rfl
@[simp] theorem sawStep_trace (s : State) : (sawStep s).trace = s.trace := rfl

@[simp] theorem sineStep_cfg (s : State) : (sineStep s).cfg = s.cfg := rfl
@[simp] theorem sineStep_knobs (s : State) : (sineStep s).knobs = s.knobs := rfl
@[simp] theorem sineStep_role (s : State) : (sineStep s).role = s.role := rfl
@[simp] theorem sineStep_roleHint (s : State) : (sineStep s).roleHint = s.roleHint := rfl
@[simp] theorem sineStep_rows (s : State) : (sineStep s).rows = s.rows := rfl
@[simp] theorem sineStep_prevKeys (s : State) : (sineStep s).prevKeys = s.prevKeys := rfl
@[simp] theorem sineStep_localNotes (s : State) : (sineStep s).localNotes = s.localNotes := rfl
@[simp] theorem sineStep_chg (s : State) : (sineStep s).chg = s.chg := rfl
@[simp] theorem sineStep_chgIdx (s : State) : (sineStep s).chgIdx = s.chgIdx := rfl
@[simp] theorem sineStep_chgPressed (s : State) : (sineStep s).chgPressed = s.chgPressed := rfl
@[simp] theorem sineStep_merged (s : State) : (sineStep s).merged = s.merged := rfl
@[simp] theorem sineStep_stepSize (s : State) : (sineStep s).stepSize = s.stepSize := rfl
@[simp] theorem sineStep_remote (s : State) : (sineStep s).remote = s.remote := rfl
@[simp] theorem sineStep_txq (s : State) : (sineStep s).txq = s.txq := rfl
@[simp] theorem sineStep_txHold (s : State) : (sineStep s).txHold = s.txHold := rfl
@[simp] theorem sineStep_txPermits (s : State) : (sineStep s).txPermits = s.txPermits := rfl
@[simp] theorem sineStep_rxq (s : State) : (sineStep s).rxq = s.rxq := rfl
@[simp] theorem sineStep_scanPos (s : State) : (sineStep s).scanPos = s.scanPos := rfl
@[simp] theorem sineStep_pitch (s : State) : (sineStep s).pitch = s.pitch := rfl
@[simp] theorem sineStep_lut (s : State) : (sineStep s).lut = s.lut := rfl
@[simp] theorem sineStep_emitted (s : State) : (sineStep s).emitted = s.emitted := rfl
@[simp] theorem sineStep_trace (s : State) : (sineStep s).trace = s.trace := rfl

end Machine
end Sys2Proof
end

