-- ==== Sys2Proof/Laws/Codec.lean ====
section
/-! SUPPORT. The digits, bytes and fields of words, there and back. -/

namespace Sys2Proof

/-! ### Identifier digits -/

theorem digitsValue_lt (ds : List Nibble) : digitsValue ds < 16 ^ ds.length := by
  induction ds with
  | nil => simp [digitsValue]
  | cons d ds ih =>
    have hd := d.isLt
    simp only [digitsValue, List.length_cons, pow_succ]
    nlinarith

theorem digitsValue_digitsOf (n v : Nat) : digitsValue (digitsOf n v) = v % 16 ^ n := by
  induction n with
  | zero => simp [digitsOf, digitsValue, Nat.mod_one]
  | succ n ih =>
    simp only [digitsOf, digitsValue, ih, Laws.length_digitsOf, BitVec.toNat_ofNat]
    rw [show (2 ^ 4 : Nat) = 16 from rfl, Nat.mod_pow_succ, Nat.mul_comm, Nat.add_comm]

/-- The digits of a number depend only on its lowest ones. -/
theorem digitsOf_add_mul (n v m : Nat) : digitsOf n (v + m * 16 ^ n) = digitsOf n v := by
  induction n generalizing m with
  | zero => rfl
  | succ n ih =>
    have hp : 0 < 16 ^ n := by positivity
    have e : v + m * 16 ^ (n + 1) = v + (m * 16) * 16 ^ n := by ring
    simp only [digitsOf]
    rw [e, ih]
    congr 1
    apply BitVec.eq_of_toNat_eq
    simp only [BitVec.toNat_ofNat, Nat.add_mul_div_right _ _ hp]
    omega

theorem digitsOf_digitsValue (ds : List Nibble) : digitsOf ds.length (digitsValue ds) = ds := by
  induction ds with
  | nil => rfl
  | cons d ds ih =>
    have hp : 0 < 16 ^ ds.length := by positivity
    simp only [List.length_cons, digitsOf, digitsValue]
    congr 1
    · apply BitVec.eq_of_toNat_eq
      rw [Nat.add_comm, Nat.add_mul_div_right _ _ hp, Nat.div_eq_of_lt (digitsValue_lt ds)]
      simp
    · rw [Nat.add_comm, digitsOf_add_mul, ih]

/-! ### Bytes and frames -/

theorem byteOfDigits_digitsOfByte (b : Byte) : byteOfDigits (b.extractLsb' 4 4) (b.extractLsb' 0 4) = b := by
  revert b
  decide

theorem digitsOfByte_byteOfDigits (h l : Nibble) : digitsOfByte (byteOfDigits h l) = [h, l] := by
  revert h l
  decide

theorem frameOfDigits_digitsOfFrame (f : Frame) : frameOfDigits (digitsOfFrame f) = some f := by
  cases f
  simp [digitsOfFrame, digitsOfByte, frameOfDigits, byteOfDigits_digitsOfByte]

/-- Only sixteen digits are a frame, and they are that frame's digits. -/
theorem digitsOfFrame_of_frameOfDigits {ds : List Nibble} {f : Frame} (h : frameOfDigits ds = some f) :
    digitsOfFrame f = ds := by
  unfold frameOfDigits at h
  split at h
  · cases h
    simp [digitsOfFrame, digitsOfByte_byteOfDigits]
  · cases h

theorem frameOfDigits_isSome {ds : List Nibble} (h : ds.length = 16) : ∃ f, frameOfDigits ds = some f := by
  match ds, h with
  | [_, _, _, _, _, _, _, _, _, _, _, _, _, _, _, _], _ => exact ⟨_, rfl⟩

/-- A byte whose value fits 4 bits is its low 4 bits. -/
theorem setWidth_nibble {b : Byte} (h : b.toNat < 16) : (b.setWidth 4).setWidth 8 = b := by
  apply BitVec.eq_of_toNat_eq
  simp only [BitVec.toNat_setWidth]
  omega

/-- A byte whose value fits 6 bits is its low 6 bits. -/
theorem setWidth_six {b : Byte} (h : b.toNat < 64) : (b.setWidth 6).setWidth 8 = b := by
  apply BitVec.eq_of_toNat_eq
  simp only [BitVec.toNat_setWidth]
  omega

theorem setWidth_back (n : Nibble) : (n.setWidth 8).setWidth 4 = n := by
  revert n
  decide

theorem setWidth_back_six (n : BitVec 6) : (n.setWidth 8).setWidth 6 = n := by
  revert n
  decide

/-- What 30_encoding.md R102 asks, field by field. -/
theorem wellFormed_iff (f : Frame) :
    f.wellFormed = true ↔
      (f.b0 = 80 ∨ f.b0 = 82) ∧ f.b1.toNat ≤ 8 ∧ f.b2.toNat ≤ 11 ∧ f.b3.toNat ≤ 63 ∧ f.b4.toNat ≤ 63 := by
  simp [Frame.wellFormed, Config.typePress, Config.typeRelease, and_assoc]

/-- A frame made of a type and fields is well-formed exactly where the type is one of the two and the octave and the key index
are in range. -/
theorem wellFormed_frameOf (ty : Byte) (o k : Nibble) (lo hi : BitVec 6) (p5 p6 p7 : Byte) :
    (frameOf ty o k lo hi p5 p6 p7).wellFormed = true ↔ (ty = 80 ∨ ty = 82) ∧ o.toNat ≤ 8 ∧ k.toNat ≤ 11 := by
  have h1 := lo.isLt
  have h2 := hi.isLt
  have h3 := o.isLt
  have h4 := k.isLt
  rw [wellFormed_iff]
  simp only [frameOf, BitVec.toNat_setWidth]
  exact and_congr_right fun _ => ⟨fun _ => by omega, fun _ => by omega⟩

/-! ### Patterns -/

/-- The digit of a quadrature row is the pattern that selects it. -/
theorem encode_decodeQdec (c : Config) (k : KnobId) (p : Nibble) : encode c (decodeQdec k p) = .qdec k p := by
  obtain ⟨⟨n, hn⟩⟩ := p
  have : n < 16 := hn
  interval_cases n <;> rfl

end Sys2Proof
end

