-- ==== Sys2Proof/Laws/Ops.lean ====
section
/-! SUPPORT. What each shared operation can do, said once: the hold, the Scanner's order, the knob decoder, the change record, the
reception of a frame, the transmit path and repeated samples. -/

namespace Sys2Proof.Machine

/-! ### Holds and order -/

/-- An operation under a condition either acts, the condition holding, or is held and changes nothing. -/
theorem whenReady_cases (ready : Bool) (act : State → State) (s : State) :
    (ready = true ∧ whenReady ready act s = act s) ∨ (ready = false ∧ whenReady ready act s = s) := by
  cases ready <;> simp [whenReady]

theorem scanMicro_at {here after : ScanPos} {act : State → State} {s : State} (h : s.scanPos = here) :
    scanMicro here after act s = { act s with scanPos := after } := by
  simp [scanMicro, whenReady, h]

theorem scanMicro_held {here after : ScanPos} {act : State → State} {s : State} (h : s.scanPos ≠ here) :
    scanMicro here after act s = s := by
  simp [scanMicro, whenReady, h]

/-! ### The knob decoder -/

theorem clamp_eq {v lo hi : Int} (h : lo ≤ hi) : clamp v lo hi = max lo (min hi v) := by
  unfold clamp
  split <;> [skip; split] <;> omega

theorem knobMin_le_knobMax (k : KnobId) : Config.knobMin k ≤ Config.knobMax k := by
  cases k <;> decide

theorem knobPolicy_eq (k : KnobId) (r : Role) (t : Int) :
    knobPolicy k r t =
      if k = .vol ∧ r = .slave then 0 else max (Config.knobMin k) (min (Config.knobMax k) t) := by
  simp only [knobPolicy, clamp_eq (knobMin_le_knobMax k)]

/-- Whatever the delta, the policy's result is in the knob's clamp range. -/
theorem knobPolicy_range (k : KnobId) (r : Role) (t : Int) :
    Config.knobMin k ≤ knobPolicy k r t ∧ knobPolicy k r t ≤ Config.knobMax k := by
  rw [knobPolicy_eq]
  split
  · rename_i h
    obtain ⟨rfl, -⟩ := h
    decide
  · have := knobMin_le_knobMax k
    omega

/-- A value in a clamp range fits the accumulator's 5 bits. -/
theorem toInt_ofInt_of_range {k : KnobId} {v : Int} (h : Config.knobMin k ≤ v ∧ v ≤ Config.knobMax k) :
    (BitVec.ofInt 5 v).toInt = v := by
  have h' : 0 ≤ v ∧ v ≤ 8 := by cases k <;> simp [Config.knobMin, Config.knobMax] at h <;> omega
  have hv : v = ((v.toNat : Nat) : Int) := by omega
  have hb : v.toNat ≤ 8 := by omega
  rw [hv]
  interval_cases v.toNat <;> rfl

@[simp] theorem turnKnob_prev (k : KnobId) (d : Int) (cur : BitVec 2) (s : State) :
    ((turnKnob k d cur s).knob k).prev = cur := by
  simp [turnKnob, State.knob]

@[simp] theorem turnKnob_value (k : KnobId) (d : Int) (cur : BitVec 2) (s : State) :
    (turnKnob k d cur s).knobValue k = knobPolicy k s.role (s.knobValue k + d) := by
  simp only [turnKnob, State.knob, State.knobValue, PerKnob.get_set_self]
  exact toInt_ofInt_of_range (knobPolicy_range _ _ _)

theorem turnKnob_knob_of_ne {k j : KnobId} (d : Int) (cur : BitVec 2) (s : State) (h : j ≠ k) :
    (turnKnob k d cur s).knob j = s.knob j := by
  simp [turnKnob, State.knob, PerKnob.get_set_of_ne _ _ h]

theorem turnKnob_value_of_ne {k j : KnobId} (d : Int) (cur : BitVec 2) (s : State) (h : j ≠ k) :
    (turnKnob k d cur s).knobValue j = s.knobValue j := by
  simp [State.knobValue, turnKnob_knob_of_ne d cur s h]

theorem turnKnob_role (k : KnobId) (d : Int) (cur : BitVec 2) (s : State) :
    (turnKnob k d cur s).role = if k = .ms then roleOf ((turnKnob k d cur s).knobValue k) else s.role := by
  rw [turnKnob_value]
  rfl

/-- A knob decoder changes its own knob and, at most, the role. -/
theorem turnKnob_frame (k : KnobId) (d : Int) (cur : BitVec 2) (s : State) :
    turnKnob k d cur s =
      { s with knobs := s.knobs.set k ((turnKnob k d cur s).knob k), role := (turnKnob k d cur s).role } := by
  simp [turnKnob, State.knob]

theorem roleOf_eq_master (v : Int) : roleOf v = .master ↔ v ≠ 0 := by
  unfold roleOf
  split <;> simp_all

/-! ### The change record -/

/-- Over an ascending list, the fold of `lastChange` ends at the last index that satisfies the test, if there is one. -/
theorem foldl_last (p : Note → Bool) (l : List Note) (hl : l.Pairwise (· < ·)) (init : Note) :
    let r := l.foldl (fun best i => if p i then i else best) init
    ((∀ i ∈ l, p i = false) ∧ r = init) ∨ (p r = true ∧ ∀ j ∈ l, r < j → p j = false) := by
  induction l using List.reverseRecOn with
  | nil => simp
  | append_singleton l a ih =>
    obtain ⟨hl, -, hlt⟩ := List.pairwise_append.mp hl
    have hlt : ∀ j ∈ l, j < a := fun j hj => hlt j hj a (by simp)
    simp only [List.foldl_append, List.foldl_cons, List.foldl_nil]
    by_cases hp : p a = true
    · refine .inr ⟨by simp [hp], fun j hj h => ?_⟩
      simp only [hp, if_true] at h
      rcases List.mem_append.mp hj with hj | hj
      · exact absurd (hlt j hj) (not_lt.mpr (le_of_lt h))
      · exact absurd h (by simp [List.mem_singleton.mp hj])
    · simp only [Bool.not_eq_true] at hp
      simp only [hp]
      have hend : ∀ {q : Note → Prop}, (∀ j ∈ l, q j → p j = false) → ∀ j ∈ l ++ [a], q j → p j = false := by
        intro q hq j hj h
        rcases List.mem_append.mp hj with hj | hj
        · exact hq j hj h
        · exact (List.mem_singleton.mp hj) ▸ hp
      rcases ih hl with ⟨hnone, hr⟩ | ⟨hr, hlast⟩
      · exact .inl ⟨fun j hj => hend (q := fun _ => True) (fun j hj _ => hnone j hj) j hj trivial, hr⟩
      · exact .inr ⟨hr, hend hlast⟩

theorem mem_allNotes (i : Note) : i ∈ allNotes := by
  revert i
  decide

/-- The reported change is a difference, and no key after it differs. -/
theorem lastChange_spec {d : BitVec 12} (h : d ≠ 0) :
    d.getLsbD (lastChange d).val = true ∧ ∀ j : Note, lastChange d < j → d.getLsbD j.val = false := by
  rcases foldl_last (fun i => d.getLsbD i.val) allNotes (by decide) 0 with ⟨hnone, -⟩ | ⟨hr, hlast⟩
  · refine absurd ?_ h
    ext i hi
    have h0 : d.getLsbD i = false := hnone ⟨i, hi⟩ (mem_allNotes _)
    rw [← BitVec.getLsbD_eq_getElem, h0]
    simp
  · exact ⟨hr, fun j hj => hlast j (mem_allNotes j) hj⟩

/-! ### The Decoder -/

/-- A frame replaces RemoteState where it is well-formed, and changes nothing else. -/
theorem receiveFrame_eq (f : Frame) (s : State) :
    receiveFrame f s = { s with remote := if f.wellFormed then decodeFrame f else s.remote } := by
  unfold receiveFrame
  split <;> rfl

/-! ### Samples -/

/-- One sample changes the accumulator and the output and nothing else. -/
theorem sampleStep_frame (s : State) :
    sampleStep s = { s with phaseAcc := (sampleStep s).phaseAcc, dacOut := (sampleStep s).dacOut } := by
  unfold sampleStep
  split <;> rfl

theorem sampleTimes_frame (n : Nat) (s : State) :
    sampleTimes n s = { s with phaseAcc := (sampleTimes n s).phaseAcc, dacOut := (sampleTimes n s).dacOut } := by
  induction n generalizing s with
  | zero => rfl
  | succ n ih =>
    rw [sampleTimes, ih, sampleStep_frame]

/-- A sample keeps the waveform selector. -/
theorem sampleStep_wave (s : State) : (sampleStep s).wave = s.wave := by
  rw [sampleStep_frame]
  rfl

end Sys2Proof.Machine
end

