-- ==== Sys2Proof/Laws/Exec.lean ====
section
/-! SUPPORT. What holds of every operation: a meaning answers a next state, and neither reads nor writes the trace. -/

namespace Sys2Proof.Machine

/-- No meaning stops. -/
theorem exec_next (i : Instr) (s : State) : ∃ t, exec i s = .next t := by
  cases i <;> exact ⟨_, rfl⟩

/-- The state with another input to come. -/
def State.withTrace (s : State) (tr : List TraceEntry) : State := { s with trace := tr }

/-- An action that neither reads nor writes the trace. -/
def TraceFree (act : State → State) : Prop := ∀ s tr, act (s.withTrace tr) = (act s).withTrace tr

theorem TraceFree.comp {f g : State → State} (hf : TraceFree f) (hg : TraceFree g) : TraceFree fun s => f (g s) :=
  fun s tr => by simp only [hg s tr, hf (g s) tr]

theorem traceFree_whenReady {c : State → Bool} {act : State → State} (hc : ∀ s tr, c (s.withTrace tr) = c s)
    (ha : TraceFree act) : TraceFree fun s => whenReady (c s) act s := by
  intro s tr
  simp only [whenReady, hc]
  split
  · exact ha s tr
  · rfl

theorem traceFree_scanMicro {here after : ScanPos} {act : State → State} (ha : TraceFree act) :
    TraceFree (scanMicro here after act) :=
  traceFree_whenReady (fun _ _ => rfl) fun s tr => by rw [ha s tr]; rfl

theorem traceFree_knobStep (k : KnobId) : TraceFree (knobStep k) := fun _ _ => rfl

theorem traceFree_readStep (rows : List Nibble) : TraceFree (readStep rows) :=
  traceFree_whenReady (fun _ _ => rfl) fun _ _ => rfl

theorem traceFree_roleStep : TraceFree roleStep := traceFree_scanMicro fun _ _ => rfl

theorem traceFree_notesStep : TraceFree notesStep := traceFree_scanMicro fun _ _ => rfl

theorem traceFree_mergeStep : TraceFree mergeStep := traceFree_scanMicro fun _ _ => rfl

theorem traceFree_stepSizeStep : TraceFree stepSizeStep := traceFree_scanMicro fun _ _ => rfl

theorem traceFree_txStep : TraceFree txStep := traceFree_whenReady (fun _ _ => rfl) fun _ _ => rfl

theorem traceFree_sampleStep : TraceFree sampleStep := by
  intro s tr
  have h : (s.withTrace tr).wave = s.wave := rfl
  simp only [sampleStep, h]
  split <;> rfl

theorem traceFree_sampleTimes (n : Nat) : TraceFree (sampleTimes n) := by
  induction n with
  | zero => exact fun _ _ => rfl
  | succ n ih => exact ih.comp traceFree_sampleStep

theorem traceFree_txpopStep : TraceFree txpopStep := by
  intro s tr
  obtain ⟨_, _, _, _, _, _, _, _, _, _, _, _, _, _, _, txq, hold, _, _, _, _, _, _, _⟩ := s
  cases hold <;> cases txq <;> rfl

theorem traceFree_txsendStep : TraceFree txsendStep := by
  intro s tr
  obtain ⟨_, _, _, _, _, _, _, _, _, _, _, _, _, _, _, _, hold, permits, _, _, _, _, _, _⟩ := s
  cases hold <;> cases permits <;> rfl

theorem traceFree_receiveFrame (f : Frame) : TraceFree (receiveFrame f) := by
  intro s tr
  simp only [receiveFrame]
  split <;> rfl

theorem traceFree_decodeStep : TraceFree decodeStep := by
  intro s tr
  have h : (s.withTrace tr).rxq = s.rxq := rfl
  simp only [decodeStep, h]
  split
  · rfl
  · exact traceFree_receiveFrame _ { s with rxq := _ } tr

theorem traceFree_scanCycle (rows : List Nibble) : TraceFree (scanCycle rows) := by
  intro s tr
  simp only [scanCycle, traceFree_readStep rows s tr, traceFree_roleStep _ tr, traceFree_scanMicro (traceFree_knobStep _) _ tr,
    traceFree_notesStep _ tr, traceFree_mergeStep _ tr, traceFree_stepSizeStep _ tr, traceFree_txStep _ tr]

/-- Every operation does the same whatever is still to come, and leaves it. -/
theorem exec_trace (i : Instr) {s t : State} (h : exec i s = .next t) (tr : List TraceEntry) :
    exec i (s.withTrace tr) = .next (t.withTrace tr) := by
  have step : ∀ {act : State → State}, TraceFree act → Host.Outcome.next (φ := Fault) (ρ := Refusal) (act s) = .next t →
      Host.Outcome.next (φ := Fault) (ρ := Refusal) (act (s.withTrace tr)) = .next (t.withTrace tr) := by
    intro act ha h
    rw [ha, Host.Outcome.next.inj h]
  cases i with
  | decode => exact step traceFree_decodeStep h
  | scanRead rows => exact step (traceFree_readStep rows) h
  | scanRole => exact step traceFree_roleStep h
  | scanK0 => exact step (traceFree_scanMicro (traceFree_knobStep _)) h
  | scanK1 => exact step (traceFree_scanMicro (traceFree_knobStep _)) h
  | scanK2 => exact step (traceFree_scanMicro (traceFree_knobStep _)) h
  | scanNotes => exact step traceFree_notesStep h
  | scanMerge => exact step traceFree_mergeStep h
  | scanStep => exact step traceFree_stepSizeStep h
  | scanTx => exact step traceFree_txStep h
  | txpop => exact step traceFree_txpopStep h
  | txsend => exact step traceFree_txsendStep h
  | tx => exact step (traceFree_txsendStep.comp traceFree_txpopStep) h
  | sampleSaw => exact step (act := sawStep) (fun _ _ => rfl) h
  | sampleSine => exact step (act := sineStep) (fun _ _ => rfl) h
  | sampleN n => exact step (traceFree_sampleTimes n) h
  | framePress o k lo hi p5 p6 p7 => exact step (traceFree_receiveFrame _) h
  | frameRelease o k lo hi p5 p6 p7 => exact step (traceFree_receiveFrame _) h
  | scan rows => exact step (traceFree_scanCycle rows) h
  | _ => rw [← Host.Outcome.next.inj h]; rfl

end Sys2Proof.Machine
end

