-- ==== Sys2Proof/Tests/Slice0.lean ====
section
/-! SUPPORT. Tests: words written out from spec/30_encoding.md, ill-formed terms, the vectors of spec/95_test_vectors.md (which are
derived from the spec's rules, not run on hardware), and a state and operands that meet the hypotheses of each statement. -/

namespace Sys2Proof.Tests

open Sys2Proof.Machine

/-! ## The test board -/

/-- The test configuration of 95_test_vectors.md. -/
def cfg : Config := { Config.initial with busId := 0x123, txqDepth := 8, rxqDepth := 8, txSlots := 3, tSettle := 0 }

/-- The board after reset. -/
def board : State := State.afterReset cfg [] []

/-- The board with the Scanner at a position. -/
def at_ (p : ScanPos) : State := { board with scanPos := p }

/-- Knobs with code 11 and these accumulators, and the role that goes with the last. -/
def knobs (vol wave oct ms : BitVec 5) (s : State) : State :=
  { s with knobs := ⟨⟨3, vol⟩, ⟨3, wave⟩, ⟨3, oct⟩, ⟨3, ms⟩⟩, role := if ms = 0 then .slave else .master }

/-- The state an operation leaves. -/
def after (i : Instr) (s : State) : State :=
  match exec i s with
  | .next t => t
  | .fault f => nomatch f
  | .refused _ => s

/-- The state one step leaves. -/
def next (s : State) : State :=
  match step s with
  | .next t => t
  | .fault f => nomatch f
  | .refused _ => s

/-- 42_bus_codec.md R176, worked example. -/
def framePress6 : Frame := ⟨0x50, 0x05, 0x06, 0x3F, 0x3E, 0, 0, 0⟩
/-- C, C#, D# at octave 3. -/
def frame3 : Frame := ⟨0x50, 0x03, 0x00, 0x34, 0x3F, 0, 0, 0⟩
/-- Octave 9: malformed. -/
def frameBad : Frame := ⟨0x50, 0x09, 0x00, 0x3F, 0x3F, 0, 0, 0⟩

/-! ## Decoding: words of 30_encoding.md R92 to R106, as digits -/

/-- R92: the operations without operands, by their numbers. -/
theorem test_decode_bare :
    ([0, 1, 3, 4, 5, 6, 7, 8, 9, 10, 12, 13, 14, 15] : List Nibble).map (fun d => (decode cfg .saw (.line [d])).toOption) =
      [some .reset, some .sampleSaw, some .scanRole, some .scanK0, some .scanK1, some .scanK2, some .scanNotes, some .scanMerge,
       some .scanStep, some .scanTx, some .decode, some .txpop, some .txsend, some .txdone] := by decide

/-- R208: the selector names the sine. -/
theorem test_decode_sample_sine : (decode cfg .sine (.line [1])).toOption = some .sampleSine := by decide

/-- P1: `2E6FFF7`. -/
theorem test_decode_scan_read :
    (decode cfg .saw (.line [2, 0xE, 6, 0xF, 0xF, 0xF, 7])).toOption = some (.scanRead [0xE, 6, 0xF, 0xF, 0xF, 7]) := by decide

/-- P1: `2E6FFF7 3 4 5 6 7 8 9 A`. -/
theorem test_decode_scan :
    (decode cfg .saw (.line [2, 0xE, 6, 0xF, 0xF, 0xF, 7, 3, 4, 5, 6, 7, 8, 9, 0xA])).toOption =
      some (.scan [0xE, 6, 0xF, 0xF, 0xF, 7]) := by decide

/-- P3: `B 123 5003 0034 3F00 0000`. -/
theorem test_decode_rxpush :
    (decode cfg .saw (.line [0xB, 1, 2, 3, 5, 0, 0, 3, 0, 0, 3, 4, 3, 0xF, 0, 0, 0, 0, 0, 0])).toOption =
      some (.rxpush 0x123 frame3) := by decide

/-- P2: `D E`. -/
theorem test_decode_tx : (decode cfg .saw (.line [0xD, 0xE])).toOption = some .tx := by decide

/-- P1: `1 1 1`. -/
theorem test_decode_sample_n : (decode cfg .saw (.line [1, 1, 1])).toOption = some (.sampleN 3) := by decide

/-- V8: `50 05 06 3F 3E 00 00 00`. -/
theorem test_decode_frame_press :
    (decode cfg .saw (.frame framePress6)).toOption = some (.framePress 5 6 0x3F 0x3E 0 0 0) := by decide

/-- V9: `52 08 0B 3F 3F 00 00 00`, every field at its upper limit. -/
theorem test_decode_frame_release :
    (decode cfg .saw (.frame ⟨0x52, 0x08, 0x0B, 0x3F, 0x3F, 0, 0, 0⟩)).toOption =
      some (.frameRelease 8 11 0x3F 0x3F 0 0 0) := by decide

/-- V9: the six frames that are not well-formed, each for its own reason. -/
theorem test_decode_malformed_frames :
    ∀ f ∈ ([⟨0x51, 0x05, 0x06, 0x3F, 0x3E, 0, 0, 0⟩, ⟨0, 0, 0, 0, 0, 0, 0, 0⟩, frameBad, ⟨0x50, 0x03, 0x0C, 0x3F, 0x3F, 0, 0, 0⟩,
        ⟨0x50, 0x03, 0x00, 0x40, 0x3F, 0, 0, 0⟩, ⟨0x50, 0x03, 0x00, 0x3F, 0x80, 0, 0, 0⟩] : List Frame),
      decode cfg .saw (.frame f) = .error .malformedFrame := by
  simp only [List.mem_cons, List.not_mem_nil, or_false, forall_eq_or_imp, forall_eq]
  exact ⟨rfl, rfl, rfl, rfl, rfl, rfl⟩

/-- R106: the sixteen patterns, in pattern order. -/
theorem test_decode_qdec :
    ([0, 1, 2, 3, 4, 5, 6, 7, 8, 9, 10, 11, 12, 13, 14, 15] : List Nibble).map (fun p => (decode cfg .saw (.qdec .oct p)).toOption) =
      [some (.qdec0000 .oct), some (.qdec0001 .oct), some (.qdec0010 .oct), some (.qdec0011 .oct), some (.qdec0100 .oct),
       some (.qdec0101 .oct), some (.qdec0110 .oct), some (.qdec0111 .oct), some (.qdec1000 .oct), some (.qdec1001 .oct),
       some (.qdec1010 .oct), some (.qdec1011 .oct), some (.qdec1100 .oct), some (.qdec1101 .oct), some (.qdec1110 .oct),
       some (.qdec1111 .oct)] := by decide

/-- R93: five row digits are no `SCAN.READ`, a digit too many is no `RESET`, no digit is no line. -/
theorem test_decode_refuses :
    decode cfg .saw (.line [2, 0, 0, 0, 0, 0]) = .error (.badOperands 2) ∧
    decode cfg .saw (.line [0, 0]) = .error (.badOperands 0) ∧ decode cfg .saw (.line []) = .error .emptyLine :=
  ⟨rfl, rfl, rfl⟩

/-! ## Rows of spec/opcode_table.json as numbers -/

/-- `RESET`, `SAMPLE.SAW`, `SCAN.READ`, `SCAN.TX` and `RXPUSH` by their match values. -/
theorem test_table_event :
    decodeTableWord 8 0x0 = some .reset ∧ decodeTableWord 8 0x1 = some .sampleSaw ∧
    decodeTableWord 8 0x2 = some (.scanRead [0, 0, 0, 0, 0, 0]) ∧ decodeTableWord 8 0xA = some .scanTx ∧
    decodeTableWord 8 0xB = some (.rxpush 0 ⟨0, 0, 0, 0, 0, 0, 0, 0⟩) := by decide

/-- `FRAME.PRESS` of V8's first row as the pattern `0x5005063F3E000000`. -/
theorem test_table_frame :
    decodeTableWord 64 0x5005063F3E000000 = some (.framePress 5 6 0x3F 0x3E 0 0 0) ∧
    decodeTableWord 64 0x5200000000000000 = some (.frameRelease 0 0 0 0 0 0 0) := by decide

/-- `TX` (`1101 1110`), `SAMPLE*2` (`0001 0001`) and `SCAN` with rows of zeros. -/
theorem test_table_pseudo :
    decodeTableWord 8 0xDE = some .tx ∧ decodeTableWord 8 0x11 = some (.sampleN 2) ∧
    decodeTableWord 64 0x20000003456789A = some (.scan [0, 0, 0, 0, 0, 0]) := by decide

/-! ## WellFormed: an ill-formed term for each check -/

/-- R142: five row words where `N_ROWS` is 6. -/
theorem test_ill_formed_rows : (Instr.scanRead [0, 0, 0, 0, 0]).wellFormed cfg = false ∧
    (Instr.scan [0, 0, 0, 0, 0, 0, 0]).wellFormed cfg = false := by decide

/-- R93: an identifier that three digits cannot hold. -/
theorem test_ill_formed_identifier : (Instr.rxpush 0x1000 frame3).wellFormed cfg = false := by decide

/-- R102: octave 9, key index 12. -/
theorem test_ill_formed_frame_fields : (Instr.framePress 9 0 0 0 0 0 0).wellFormed cfg = false ∧
    (Instr.framePress 0 12 0 0 0 0 0).wellFormed cfg = false ∧ (Instr.frameRelease 9 0 0 0 0 0 0).wellFormed cfg = false ∧
    (Instr.frameRelease 0 12 0 0 0 0 0).wellFormed cfg = false := by decide

/-- Entry 13: one sample is `SAMPLE`. -/
theorem test_ill_formed_repeat : (Instr.sampleN 1).wellFormed cfg = false := by decide

/-- R208: the variant that the selector does not name. -/
theorem test_not_selected : Instr.sampleSine.selectedBy .saw = false ∧ Instr.sampleSaw.selectedBy .sine = false := by decide

/-! ## Vectors: the Sampler -/

/-- V11: rows 1, 7 and 16. -/
theorem test_saw_code : sawCode 0 0 = 127 ∧ sawCode 0x0BFFFFFF 5 = 113 ∧ sawCode 0x40000000 3 = 126 := by decide

/-- V11, row 5: the accumulator wraps. -/
theorem test_sample_saw :
    (after .sampleSaw { knobs 8 0 0 1 board with phaseAcc := 0xF0000000, stepSize := 0x20000000 }).phaseAcc = 0x10000000 ∧
    (after .sampleSaw { knobs 8 0 0 1 board with phaseAcc := 0xF0000000, stepSize := 0x20000000 }).dacOut = 16 := by decide

/-- V12, row 6: a voice in its negative half, rounded toward minus infinity. -/
theorem test_sample_sine :
    (after .sampleSine { knobs 8 1 4 1 board with phaseAcc := 0x19, localNotes := 0x200 }).dacOut = 124 := by decide

/-- V12, row 9: the same note local and remote counts twice. -/
theorem test_sample_sine_merged :
    (after .sampleSine { knobs 8 1 4 1 board with phaseAcc := 0xC, localNotes := 0x200, merged := ⟨0x200, 4⟩ }).dacOut =
      191 := by decide

/-- V12, rows 15 and 17: the output stage wraps or clamps. -/
theorem test_out8 : out8 false 731 = 91 ∧ out8 true 731 = 255 ∧ out8 false (-171) = 213 ∧ out8 true (-171) = 0 := by decide

/-- V11, four successive samples, the third: `0x22530633`, 34. -/
theorem test_sample_n :
    (after (.sampleN 3) { knobs 8 0 0 1 board with stepSize := 191955473 }).phaseAcc = 0x22530633 ∧
    (after (.sampleN 3) { knobs 8 0 0 1 board with stepSize := 191955473 }).dacOut = 34 := by decide

/-- V5: B8, A3, D2 (floored). -/
theorem test_note_step : noteStep Config.pitchDefault 11 8 = 1542700096 ∧ noteStep Config.pitchDefault 9 3 = 42949673 ∧
    noteStep Config.pitchDefault 2 2 = 14332733 := by decide

/-- V6: each term is floored before the sum; twelve notes at octave 8 are not truncated. -/
theorem test_chord_sum : chordSum Config.pitchDefault 0x091 3 = 95977735 ∧ chordSum Config.pitchDefault 0xFFF 8 = 13743262368 ∧
    chordSum Config.pitchDefault 0xFFF 4 = 858953898 := by decide

/-- V12, one voice in detail: A4 at 26, and B8 at 6. -/
theorem test_voice : voice Config.lutDefault 85899346 26 = -262874923 ∧ voice Config.lutDefault 1542700096 6 = 1755750016 := by
  decide

/-- 43_synth_engine.md R203: the table is symmetric about its peak at 64. -/
theorem test_lut_symmetric : ∀ i : Fin 63, Config.lutDefault[64 + (i.val + 1)] = Config.lutDefault[64 - (i.val + 1)] := by decide

/-! ## Vectors: the Scanner -/

/-- V3: rows E 6 F are C, E, G. -/
theorem test_key_mask : keyMask [0xE, 6, 0xF] = 0xF6E ∧ notesOf (keyMask [0xE, 6, 0xF]) = 0x091 ∧
    keyMask [0xF, 0xF, 7] = 0x7FF := by decide

/-- V1: codes of knobs 2 and 3 in row 3, of knobs 0 and 1 in row 4. -/
theorem test_knob_code :
    ({ board with rows := [0xF, 0xF, 0xF, 0x9, 0x6, 0xF] } : State).knobCode .ms = 1 ∧
    ({ board with rows := [0xF, 0xF, 0xF, 0x9, 0x6, 0xF] } : State).knobCode .oct = 2 ∧
    ({ board with rows := [0xF, 0xF, 0xF, 0x9, 0x6, 0xF] } : State).knobCode .wave = 2 ∧
    ({ board with rows := [0xF, 0xF, 0xF, 0x9, 0x6, 0xF] } : State).knobCode .vol = 1 := by decide

/-- R142. -/
theorem test_scan_read : (after (.scanRead [1, 2, 3, 4, 5, 6]) board).rows = [1, 2, 3, 4, 5, 6] ∧
    (after (.scanRead [1, 2, 3, 4, 5, 6]) board).scanPos = .role := by decide

/-- V2, row 15: knob 3 from 10 to 11 makes a master; the handshake bit is bit 3 of row 5. -/
theorem test_scan_role :
    (after .scanRole { at_ .role with knobs := board.knobs.set .ms ⟨2, 0⟩, rows := [0xF, 0xF, 0xF, 0xF, 0xF, 7] }).role = .master ∧
    (after .scanRole { at_ .role with knobs := board.knobs.set .ms ⟨2, 0⟩, rows := [0xF, 0xF, 0xF, 0xF, 0xF, 7] }).roleHint =
      true := by decide

/-- V2, rows 11 and 14: a master's volume goes up, a slave's is forced to 0. -/
theorem test_scan_k0 :
    ((after .scanK0 { at_ .k0 with
      role := .master, knobs := board.knobs.set .vol ⟨1, 7⟩, rows := [0xF, 0xF, 0xF, 0xF, 0x3, 0xF] }).knob .vol) = ⟨0, 8⟩ ∧
    ((after .scanK0 { at_ .k0 with knobs := board.knobs.set .vol ⟨3, 5⟩ }).knob .vol) = ⟨3, 0⟩ := by decide

/-- V2, rows 8 and 9: the waveform is clamped at 1; sawtooth to sine. -/
theorem test_scan_k1 :
    ((after .scanK1 { at_ .k1 with
      knobs := board.knobs.set .wave ⟨1, 1⟩, rows := [0xF, 0xF, 0xF, 0xF, 0xC, 0xF] }).knob .wave) = ⟨0, 1⟩ ∧
    ((after .scanK1 { at_ .k1 with knobs := board.knobs.set .wave ⟨2, 0⟩ }).knob .wave) = ⟨3, 1⟩ := by decide

/-- V2, rows 2 and 3: the octave goes down; clamp at the top. -/
theorem test_scan_k2 :
    ((after .scanK2 { at_ .k2 with
      knobs := board.knobs.set .oct ⟨3, 3⟩, rows := [0xF, 0xF, 0xF, 0xB, 0xF, 0xF] }).knob .oct) = ⟨2, 2⟩ ∧
    ((after .scanK2 { at_ .k2 with knobs := board.knobs.set .oct ⟨2, 8⟩ }).knob .oct) = ⟨3, 8⟩ := by decide

/-- V4, row 10: the release of the higher key is the one reported. -/
theorem test_scan_notes_release :
    (after .scanNotes { at_ .notes with prevKeys := 0xFBF, rows := [0xE, 0xF, 0xF, 0xF, 0xF, 0xF] }).localNotes = 0x001 ∧
    (after .scanNotes { at_ .notes with prevKeys := 0xFBF, rows := [0xE, 0xF, 0xF, 0xF, 0xF, 0xF] }).chgIdx = 6 ∧
    (after .scanNotes { at_ .notes with prevKeys := 0xFBF, rows := [0xE, 0xF, 0xF, 0xF, 0xF, 0xF] }).chgPressed = false := by
  decide

/-- V4, row 7: a key that is held is no change, and the old index stays. -/
theorem test_scan_notes_held :
    (after .scanNotes { at_ .notes with prevKeys := 0xFBF, rows := [0xF, 0xB, 0xF, 0xF, 0xF, 0xF], chgIdx := 5 }).chg = false ∧
    (after .scanNotes { at_ .notes with prevKeys := 0xFBF, rows := [0xF, 0xB, 0xF, 0xF, 0xF, 0xF], chgIdx := 5 }).chgIdx = 5 := by
  decide

/-- V7: a master copies, a slave clears the notes and keeps the octave. -/
theorem test_scan_merge :
    (after .scanMerge { at_ .merge with role := .master, remote := ⟨0x00B, 3, .pressed⟩ }).merged = ⟨0x00B, 3⟩ ∧
    (after .scanMerge { at_ .merge with merged := ⟨0x00B, 3⟩ }).merged = ⟨0x000, 3⟩ := by decide

/-- V7: scenario 3 with the plain sum, and the sum that wraps. -/
theorem test_scan_step :
    (after .scanStep { knobs 8 1 4 1 (at_ .step) with localNotes := 0x090, merged := ⟨0x00B, 3⟩ }).stepSize = 223844047 ∧
    (after .scanStep { knobs 8 1 8 1 (at_ .step) with localNotes := 0xFFF }).stepSize = 858360480 := by decide

/-- R176, worked example: the frame of key 6 at octave 5; a master queues none. -/
theorem test_scan_tx :
    (after .scanTx { knobs 0 0 5 0 (at_ .tx) with
      rows := [0xF, 0xB, 0xF, 0xF, 0xF, 0xF], chg := true, chgIdx := 6, chgPressed := true }).txq = [framePress6] ∧
    (after .scanTx { knobs 0 0 5 1 (at_ .tx) with
      rows := [0xF, 0xB, 0xF, 0xF, 0xF, 0xF], chg := true, chgIdx := 6, chgPressed := true }).txq = [] := by decide

/-- P1: the chord C, E, G of a master. -/
theorem test_scan : (after (.scan [0xE, 6, 0xF, 0xF, 0xF, 7]) (knobs 8 0 4 1 board)).stepSize = 191955473 ∧
    (after (.scan [0xE, 6, 0xF, 0xF, 0xF, 7]) (knobs 8 0 4 1 board)).roleHint = true := by decide

/-- V13: a key held at power-up is reported as a press. -/
theorem test_scan_after_reset : (after (.scan [0xE, 0xF, 0xF, 0xF, 0xF, 0xF]) (after .reset board)).txq =
      [⟨0x50, 0x00, 0x00, 0x3E, 0x3F, 0, 0, 0⟩] ∧
    (after (.scan [0xE, 0xF, 0xF, 0xF, 0xF, 0xF]) (after .reset board)).stepSize = 3192253 := by decide

/-- V13. -/
theorem test_reset : (after .reset { board with phaseAcc := 5, dacOut := 9, chg := true, scanPos := .tx }).dacOut = 128 ∧
    (after .reset { board with phaseAcc := 5, dacOut := 9, chg := true, scanPos := .tx }).scanPos = .idle := by decide

/-! ## Vectors: knob patterns -/

/-- V2, rows 4, 5, 6, 7: at knob 2, the pattern 00 01 clamps at the bottom; 00 11, 10 10 and 00 10 turn nothing. -/
theorem test_qdec_none :
    ((after (.qdec0001 .oct) board).knob .oct) = ⟨1, 0⟩ ∧
    ((after (.qdec0011 .oct) (knobs 0 0 3 0 board)).knob .oct) = ⟨3, 3⟩ ∧
    ((after (.qdec1010 .oct) (knobs 0 0 3 0 board)).knob .oct) = ⟨2, 3⟩ ∧
    ((after (.qdec0010 .oct) (knobs 0 0 3 0 board)).knob .oct) = ⟨2, 3⟩ := by decide

/-- V2, rows 1, 2, 9: the pairs that turn a knob. -/
theorem test_qdec_turn :
    ((after (.qdec0100 .oct) (knobs 0 0 4 0 board)).knob .oct) = ⟨0, 5⟩ ∧
    ((after (.qdec1110 .oct) (knobs 0 0 3 0 board)).knob .oct) = ⟨2, 2⟩ ∧
    ((after (.qdec1011 .wave) board).knob .wave) = ⟨3, 1⟩ := by decide

/-- V2, rows 13 and 16: a slave's volume stays 0; knob 3 makes a slave. -/
theorem test_qdec_policies :
    ((after (.qdec0100 .vol) board).knob .vol) = ⟨0, 0⟩ ∧ (after (.qdec1110 .ms) (knobs 0 0 0 1 board)).role = .slave := by decide

/-! ## Vectors: the bus -/

/-- V8: keys `0x7FF`, octave 8, index 11, pressed. -/
theorem test_build_frame : buildFrame 0x7FF 8 11 true = ⟨0x50, 0x08, 0x0B, 0x3F, 0x1F, 0, 0, 0⟩ ∧
    buildFrame 0xAAA 0 0 false = ⟨0x52, 0x00, 0x00, 0x2A, 0x2A, 0, 0, 0⟩ := by decide

/-- V10: the block's identifier enters, a foreign one does not. -/
theorem test_rxpush : (after (.rxpush 0x123 frame3) board).rxq = [frame3] ∧ (after (.rxpush 0x124 frame3) board).rxq = [] := by
  decide

/-- V10: a malformed frame leaves RemoteState. -/
theorem test_decode_malformed : (after .decode { board with rxq := [frameBad, frame3] }).remote = board.remote ∧
    (after .decode { board with rxq := [frameBad, frame3] }).rxq = [frame3] := by decide

/-- V9: the third row. -/
theorem test_decode_result : (after .decode { board with rxq := [frame3] }).remote = ⟨0x00B, 3, .pressed⟩ := by decide

/-- V9, the row whose release frame shows key 11 pressed; and its third row. -/
theorem test_frame_rows : (after (.frameRelease 8 11 0x3F 0x1F 0 0 0) board).remote = ⟨0x800, 8, .released⟩ ∧
    (after (.framePress 3 0 0x34 0x3F 0xAA 0xBB 0xCC) board).remote = ⟨0x00B, 3, .pressed⟩ := by decide

/-- V10. -/
theorem test_txpop : (after .txpop { board with txq := [framePress6, frame3] }).txHold = some framePress6 ∧
    (after .txpop { board with txq := [framePress6, frame3] }).txq = [frame3] := by decide

/-- V10: emitted with `BUS_ID`; held without a permit. -/
theorem test_txsend : (after .txsend { board with txHold := some frame3 }).emitted = [⟨0x123, frame3⟩] ∧
    (after .txsend { board with txHold := some frame3, txPermits := 0 }).txHold = some frame3 := by decide

/-- V10: a permit comes back; with none out it is ignored. -/
theorem test_txdone : (after .txdone { board with txPermits := 2 }).txPermits = 3 ∧ (after .txdone board).txPermits = 3 := by decide

/-- P2: `TXPOP; TXSEND`. -/
theorem test_tx : (after .tx { board with txq := [framePress6] }).emitted = [⟨0x123, framePress6⟩] ∧
    (after .tx { board with txq := [framePress6] }).txPermits = 2 := by decide

/-! ## The step -/

/-- A `TXDONE` line. -/
theorem test_step_line : (next { board with txPermits := 0, trace := [.op [15], .scanTick] }).txPermits = 1 ∧
    (next { board with txPermits := 0, trace := [.op [15], .scanTick] }).trace = [.scanTick] := by decide

/-- 20_memory.md R71: a tick in mid-cycle is no second start. -/
theorem test_step_tick : (next { board with trace := [.scanTick] }).scanPos = .read ∧
    (next { at_ .notes with trace := [.scanTick] }).scanPos = .notes := by decide

/-- `SCAN.NOTES` placed as the first operation after reset runs. -/
theorem test_fetch_word : (next (State.reset.withFetchWord 8 7)).scanPos = .merge := by decide

/-- `FRAME.RELEASE` placed as the first operation after reset is decoded. -/
theorem test_fetch_frame : (next (State.reset.withFetchWord 64 0x5208000000000000)).remote = ⟨0xFFF, 8, .released⟩ := by decide

/-! ## Witnesses: a state and operands that meet the hypotheses of each statement, clause by clause -/

/-- `SCAN.READ`, `RXPUSH` with the largest identifier, and both frame rows at the ends of their ranges. -/
theorem witness_decode_of_encode :
    (∀ i ∈ [Instr.scanRead [0, 1, 2, 3, 4, 15], .rxpush 0xFFF frame3, .framePress 8 11 0 0x3F 0 0 0, .frameRelease 0 0 0x3F 0 0 0 0,
      .scan [0, 1, 2, 3, 4, 15], .sampleN 2], i.wellFormed cfg = true ∧ i.selectedBy .saw = true) ∧
    Instr.sampleSine.selectedBy .sine = true := by decide

theorem witness_encode_of_decode : decode cfg .saw (.line [0xD, 0xE]) = .ok .tx ∧
    decode cfg .saw (.frame framePress6) = .ok (.framePress 5 6 0x3F 0x3E 0 0 0) ∧
    decode cfg .sine (.qdec .ms 15) = .ok (.qdec1111 .ms) := ⟨rfl, rfl, rfl⟩

/-- Numbers 0, 2 and 11, with as many digits as each takes. -/
theorem witness_operation_number : ([] : List Nibble).length + 1 = lineLength cfg (0 : Nibble).toNat ∧
    ([0, 0, 0, 0, 0, 0] : List Nibble).length + 1 = lineLength cfg (2 : Nibble).toNat ∧
    (List.replicate 19 (0 : Nibble)).length + 1 = lineLength cfg (11 : Nibble).toNat := by decide

theorem witness_step_runs_line : ({ board with trace := [.op [0xF]] } : State).trace = .op [0xF] :: [] ∧
    decode cfg board.wave (.line [0xF]) = .ok .txdone := ⟨rfl, rfl⟩

theorem witness_scan_tick : ({ board with trace := [.scanTick] } : State).scanPos = .idle ∧
    ({ at_ .tx with trace := [.scanTick] } : State).scanPos ≠ .idle := by decide

theorem witness_sample_line : board.knobValue .wave = 0 ∧ (knobs 8 1 4 1 board).knobValue .wave ≠ 0 := by decide

/-- Entry 16: a digit too many, and no digit: the line is used up and nothing else changes. -/
theorem test_step_undecodable : step { board with trace := [.op [0, 0], .scanTick] } = .next { board with trace := [.scanTick] } ∧
    step { board with trace := [.op []] } = .next board := ⟨rfl, rfl⟩

theorem witness_undecodable : ({ board with trace := [.op []] } : State).trace = .op [] :: [] ∧
    decode cfg board.wave (.line []) = .error .emptyLine := ⟨rfl, rfl⟩

/-- R277: the display sees new rows with old notes. -/
theorem test_display : (after (.scanRead [0xE, 0xF, 0xF, 0xF, 0xF, 0xF]) (at_ .read)).display.rows = [0xE, 0xF, 0xF, 0xF, 0xF, 0xF] ∧
    (after (.scanRead [0xE, 0xF, 0xF, 0xF, 0xF, 0xF]) (at_ .read)).display.localNotes = 0x000 ∧
    (after .decode { board with rxq := [frame3] }).display.rsTag = .pressed := by decide

theorem witness_held : enabled .scanRole board = false ∧ enabled .decode board = false ∧ enabled .txpop board = false ∧
    enabled .txsend board = false ∧ enabled .scanTx board = false ∧ enabled (.scanRead []) (at_ .tx) = false ∧
    enabled .scanTx { at_ .tx with chg := true, txq := List.replicate 8 frame3 } = false := by decide

theorem witness_scan_rows : ([0, 0, 0, 0, 0, 0xF] : List Nibble).length = board.cfg.nRows := by decide

theorem witness_sample_after_reset : board.cfg.knobReset = ⟨0, 0, 0, 0⟩ ∧ ∃ t, exec .reset board = .next t := ⟨rfl, _, rfl⟩

theorem witness_first_scan : board.cfg.knobReset.ms = 0 ∧ ([0, 0, 0, 0, 0, 0] : List Nibble).length = board.cfg.nRows ∧
    ∃ t, exec .reset board = .next t := ⟨rfl, rfl, _, rfl⟩

/-- Both ends of the volume, for the sawtooth and the sine. -/
theorem witness_volume : board.volume = 0 ∧ (knobs 8 1 4 1 board).volume = 8 := by decide

/-- Both ends of the range in which the two output stages agree. -/
theorem witness_output_range : (-128 : Int) ≤ -128 ∧ (-128 : Int) ≤ 127 ∧ (127 : Int) ≤ 127 := by decide

theorem witness_silent : board.localNotes = 0 ∧ board.merged.mNotes = 0 := by decide

theorem witness_phase_zero : ({ board with phaseAcc := 0xFFFFFFFF } : State).phaseAcc = 0xFFFFFFFF ∧ board.lut[0] = 0 := by decide

/-- A board, and one that differs from it in role, rows, queues and RemoteState. -/
theorem witness_sampler_inputs :
    let s := knobs 8 1 4 1 board
    let s' : State := { s with role := .slave, rows := [], remote := ⟨1, 2, .pressed⟩, txq := [frame3], scanPos := .tx }
    s.knobValue .wave = s'.knobValue .wave ∧ s.volume = s'.volume ∧ s.octave = s'.octave ∧ s.stepSize = s'.stepSize ∧
    s.localNotes = s'.localNotes ∧ s.merged = s'.merged ∧ s.phaseAcc = s'.phaseAcc ∧ s.pitch = s'.pitch ∧
    s.lut = s'.lut ∧ s.cfg.sineSat = s'.cfg.sineSat := ⟨rfl, rfl, rfl, rfl, rfl, rfl, rfl, rfl, rfl, rfl⟩

/-- A Pitch entry at its bound, and the octaves at the ends of each clause. -/
theorem witness_note_step : (268435455 : Word32).toNat < 2 ^ 28 ∧
    (∀ i : Note, (Vector.replicate 12 (268435455 : Word32))[i].toNat < 2 ^ 28) ∧
    (4 ≤ 4 ∧ 4 < 8 ∧ 8 ≤ 8) ∧ (0 < 4 ∧ 3 < 4) := by decide

theorem witness_chord_monotone : ∀ i : Note, (0x001 : NoteBitmap).getLsbD i.val = true → (0x091 : NoteBitmap).getLsbD i.val = true := by
  decide

theorem witness_knob_positions : (at_ .k0).scanPos = .k0 ∧ (at_ .k1).scanPos = .k1 ∧ (at_ .k2).scanPos = .k2 ∧
    (at_ .role).scanPos = .role ∧ (at_ .k0).role = .slave ∧ (knobs 8 0 0 1 (at_ .k0)).role = .master := by decide

theorem witness_knob_range : Config.knobMin .vol ≤ (knobs 8 0 0 1 board).knobValue .vol ∧
    (knobs 8 0 0 1 board).knobValue .vol ≤ Config.knobMax .vol := by decide

theorem witness_scan_read : ([0, 0, 0, 0, 0, 0] : List Nibble).length = board.cfg.nRows ∧ (at_ .idle).scanPos = .idle ∧
    (at_ .read).scanPos = .read := by decide

/-- A mask that is the previous one, and one that differs at both ends. -/
theorem witness_scan_notes : (at_ .notes).scanPos = .notes ∧ keyMask (at_ .notes).rows = (at_ .notes).prevKeys ∧
    keyMask ({ at_ .notes with rows := [0xE, 0xF, 7] } : State).rows ≠ (at_ .notes).prevKeys := by decide

theorem witness_scan_merge : (at_ .merge).scanPos = .merge ∧ (at_ .merge).role = .slave ∧
    (knobs 0 0 0 1 (at_ .merge)).role = .master ∧ (at_ .step).scanPos = .step := by decide

/-- A master; a slave without a change; a slave with a change and room for one more frame; a slave with a change and none. -/
theorem witness_scan_tx : (at_ .tx).scanPos = .tx ∧ (knobs 0 0 0 1 (at_ .tx)).role = .master ∧ (at_ .tx).chg = false ∧
    ({ at_ .tx with txq := List.replicate 7 frame3 } : State).txq.length < cfg.txqDepth ∧
    ({ at_ .tx with txq := List.replicate 8 frame3 } : State).txq.length = cfg.txqDepth := by decide

/-- A start with nothing queued, and one with a full queue; a cycle with a change in a slave, and one without. -/
theorem witness_scan_cycle : ([0, 0, 0, 0, 0, 0] : List Nibble).length = board.cfg.nRows ∧ board.scanPos = .idle ∧
    board.txq.length < board.cfg.txqDepth ∧ board.cfg.txqDepth ≤ ({ board with txq := List.replicate 8 frame3 } : State).txq.length ∧
    (after (.scan [0, 0, 0, 0, 0, 0]) board).role = .slave ∧ (after (.scan [0, 0, 0, 0, 0, 0]) board).chg = true ∧
    (after (.scan [0xF, 0xF, 0xF, 0, 0, 0]) board).chg = false ∧
    (after (.scan [0, 0, 0, 0xF, 0, 0]) (knobs 0 0 0 1 board)).role = .master := by decide

theorem witness_frame_round_trip : 8 ≤ 8 ∧ (11 : Nibble).toNat ≤ 11 := by decide

/-- Room for one more frame; a foreign identifier; a full queue. -/
theorem witness_rxpush : ({ board with rxq := List.replicate 7 frame3 } : State).rxq.length < cfg.rxqDepth ∧ 0x124 ≠ cfg.busId ∧
    cfg.rxqDepth ≤ ({ board with rxq := List.replicate 8 frame3 } : State).rxq.length := by decide

/-- An empty queue, a head with every field at its upper limit, and a malformed head. -/
theorem witness_decode : board.rxq = [] ∧ (⟨0x52, 8, 11, 63, 63, 0, 0, 0⟩ : Frame).wellFormed = true ∧
    frameBad.wellFormed = false ∧ ((8 : Nibble).toNat ≤ 8 ∧ (11 : Nibble).toNat ≤ 11) ∧ ¬(9 : Nibble).toNat ≤ 8 := by decide

theorem witness_decode_runs_frame : decode cfg .saw (.frame frame3) = .ok (.framePress 3 0 0x34 0x3F 0 0 0) ∧
    decode cfg .saw (.frame frameBad) = .error .malformedFrame := ⟨rfl, rfl⟩

theorem witness_txpop : (({ board with txq := [frame3] } : State).txHold = none ∧
    ({ board with txq := [frame3] } : State).txq = frame3 :: []) ∧ board.txq = [] ∧
    ({ board with txHold := some frame3 } : State).txHold ≠ none := by decide

/-- The last permit, and none. -/
theorem witness_txsend : ({ board with txHold := some frame3, txPermits := 1 } : State).txHold = some frame3 ∧
    0 < ({ board with txPermits := 1 } : State).txPermits ∧ board.txHold = none ∧
    ({ board with txPermits := 0 } : State).txPermits = 0 := by decide

theorem witness_txdone : ({ board with txPermits := 2 } : State).txPermits < cfg.txSlots ∧ cfg.txSlots ≤ board.txPermits := by decide

theorem witness_tx : ({ board with txq := [frame3] } : State).txHold = none ∧
    ({ board with txq := [frame3] } : State).txq = frame3 :: [] ∧ 0 < ({ board with txq := [frame3] } : State).txPermits := by decide

theorem cfg_valid : cfg.Valid where
  pitchBound := by decide
  lutNonneg := by decide
  lutZero := by decide
  keyRows := by decide
  bitsInRows := by decide
  bitsDistinct := by decide
  idFits := by decide
  txqRoom := by decide
  rxqRoom := by decide
  slots := by decide
  resetInRange := by intro k; cases k <;> decide
  slaveReset := rfl

/-- A slave at octave 8 about to send the press of key 6, with seven frames queued. -/
def sender : State :=
  { knobs 0 0 8 0 (at_ .tx) with
    rows := [0xF, 0xB, 0xF, 0xF, 0xF, 0xF], prevKeys := 0xFBF, localNotes := 0x040, chg := true, chgIdx := 6, chgPressed := true
    txq := List.replicate 7 frame3, trace := [.op [10]] }

theorem sender_inv : BlockInvariant sender where
  cfgValid := cfg_valid
  knobRange := by intro k; cases k <;> decide
  roleKnob := by decide
  slaveVolume := fun _ _ => by decide
  slaveMerged := fun _ _ => by decide
  rowCount := by decide
  notesOfPrev := by decide
  prevOfRows := fun _ => by decide
  chgIdxRange := by decide
  mOctRange := by decide
  rsOctRange := by decide
  txqRange := by decide
  rxqRange := by decide
  permitRange := by decide
  txqFrames := by decide
  heldFrame := by decide
  sentFrames := by decide
  pitchTable := rfl
  lutTable := rfl

theorem witness_slave_notes : BlockInvariant sender ∧ sender.scanPos = .tx ∧ sender.role = .slave ∧ sender.chg = true ∧
    sender.txq.length < sender.cfg.txqDepth ∧ board.cfg.busId = sender.cfg.busId ∧ board.rxq = [] ∧ 1 ≤ board.cfg.rxqDepth :=
  ⟨sender_inv, by decide⟩

theorem witness_writers : encode cfg .scanK0 = .line [4] ∧ (∃ t, exec .scanK0 (at_ .k0) = .next t) ∧ Instr.scanK0 ≠ .reset ∧
    (∀ rows, Instr.scanK0 ≠ .scan rows) := ⟨rfl, ⟨_, rfl⟩, by decide, fun _ h => nomatch h⟩

theorem witness_outbound : Instr.scanTx ≠ .reset ∧ ∃ t, exec .scanTx sender = .next t := ⟨by decide, _, rfl⟩

theorem witness_inbound : Instr.decode ≠ .reset ∧ ∃ t, exec .decode { board with rxq := [frame3] } = .next t := ⟨by decide, _, rfl⟩

/-- A sample goes on while `SCAN.TX` is held by a full queue. -/
theorem witness_held_scanner :
    let s : State := { sender with txq := List.replicate 8 frame3 }
    encode cfg .sampleSaw = .line [1] ∧ (∃ t, exec .sampleSaw s = .next t) ∧ s.scanPos = .tx ∧ s.role = .slave ∧ s.chg = true ∧
      s.txq.length = s.cfg.txqDepth ∧ Instr.sampleSaw ≠ .txpop ∧ Instr.sampleSaw ≠ .tx ∧ Instr.sampleSaw ≠ .reset :=
  ⟨rfl, ⟨_, rfl⟩, by decide⟩

theorem witness_step_keeps_invariant : BlockInvariant sender ∧ ∃ t, step sender = .next t := ⟨sender_inv, _, rfl⟩

end Sys2Proof.Tests
end

section
/-! PROOFS. The family of the state (10_state.md): what each operation may write (R47), what a trace line can name, and the
invariant of every reachable state (R24). -/

namespace Sys2Proof

/-! ### What a trace line can name -/

/-- The operation is one that a trace line expresses, with operands of the shape 30_encoding.md R93 and R94 give it. -/
def Instr.OnLine (c : Config) (i : Instr) : Prop := i.wellFormed c = true ∧ ∃ digits, encode c i = .line digits

theorem bareLine_onLine {c : Config} {op : Nibble} {i j : Instr} {args : List Nibble} (hi : i.OnLine c)
    (h : bareLine op i args = .ok j) : j.OnLine c := by
  unfold bareLine at h
  split at h <;> cases h
  exact hi

theorem sampleLine_onLine {c : Config} {w : Waveform} {args : List Nibble} {i : Instr} (h : sampleLine w args = .ok i) :
    i.OnLine c := by
  unfold sampleLine at h
  split at h
  · cases w <;> cases h <;> exact ⟨rfl, _, rfl⟩
  · next hne =>
    split at h <;> cases h
    have := List.length_pos_of_ne_nil hne
    exact ⟨by simp [Instr.wellFormed]; omega, _, rfl⟩

theorem scanReadLine_onLine {c : Config} {args : List Nibble} {i : Instr} (h : scanReadLine c args = .ok i) : i.OnLine c := by
  unfold scanReadLine at h
  split at h
  · next hlen =>
    cases h
    exact ⟨by simp [Instr.wellFormed, hlen], _, rfl⟩
  · split at h
    · next hlen =>
      cases h
      exact ⟨by simp [Instr.wellFormed, hlen.1], _, rfl⟩
    · cases h

/-- The identifier of a received frame has at most the digits of a trace line's identifier (entry 7). -/
theorem rxpushLine_onLine {c : Config} {args : List Nibble} {i : Instr} (h : rxpushLine c args = .ok i) : i.OnLine c := by
  unfold rxpushLine at h
  split at h <;> cases h
  have hid : digitsValue (args.take c.busIdDigits) < 16 ^ c.busIdDigits :=
    (digitsValue_lt _).trans_le (Nat.pow_le_pow_right (by decide) (List.length_take_le _ _))
  exact ⟨by simpa [Instr.wellFormed] using hid, _, rfl⟩

theorem txpopLine_onLine {c : Config} {args : List Nibble} {i : Instr} (h : txpopLine args = .ok i) : i.OnLine c := by
  unfold txpopLine at h
  split at h
  · cases h; exact ⟨rfl, _, rfl⟩
  · split at h <;> cases h
    exact ⟨rfl, _, rfl⟩

theorem decodeLine_onLine {c : Config} {w : Waveform} {digits : List Nibble} {i : Instr}
    (h : decodeLine c w digits = .ok i) : i.OnLine c := by
  unfold decodeLine at h
  split at h
  · cases h
  · split at h
    case h_2 => exact sampleLine_onLine h
    case h_3 => exact scanReadLine_onLine h
    case h_12 => exact rxpushLine_onLine h
    case h_14 => exact txpopLine_onLine h
    all_goals exact bareLine_onLine ⟨rfl, _, rfl⟩ h

end Sys2Proof

namespace Sys2Proof.Machine

/-- The operation a trace line names in a state is one of the lines' operations: neither a FRAME row nor a QDEC row. -/
theorem lineOp_onLine {s : State} {digits : List Nibble} {i : Instr} (h : s.lineOp digits = .ok i) : i.OnLine s.cfg :=
  decodeLine_onLine h

/-! ### What each operation may write (10_state.md R47) -/

/-- Everything in the state that is none of the Scanner's: neither its position, its registers nor the queue it fills. -/
def State.besideScanner (s : State) :=
  (s.cfg, s.phaseAcc, s.dacOut, s.remote, s.txHold, s.txPermits, s.rxq, s.pitch, s.lut, s.emitted, s.trace)

/-- From `s` to `t` nothing is written but the registers that 10_state.md R47 gives the operation, whatever they are written
with. The last line is that of the QDEC rows. -/
def Footprint (i : Instr) (s t : State) : Prop :=
  match i with
  | .reset => t = State.afterReset s.cfg s.emitted s.trace
  | .sampleSaw | .sampleSine | .sampleN _ => ∃ p out, t = { s with phaseAcc := p, dacOut := out }
  | .scanRead _ => ∃ rows pos, t = { s with rows := rows, scanPos := pos }
  | .scanRole => ∃ knob role hint pos,
      t = { s with knobs := s.knobs.set .ms knob, role := role, roleHint := hint, scanPos := pos }
  | .scanK0 => ∃ knob pos, t = { s with knobs := s.knobs.set .vol knob, scanPos := pos }
  | .scanK1 => ∃ knob pos, t = { s with knobs := s.knobs.set .wave knob, scanPos := pos }
  | .scanK2 => ∃ knob pos, t = { s with knobs := s.knobs.set .oct knob, scanPos := pos }
  | .scanNotes => ∃ notes prev chg idx pressed pos, t =
      { s with localNotes := notes, prevKeys := prev, chg := chg, chgIdx := idx, chgPressed := pressed, scanPos := pos }
  | .scanMerge => ∃ merged pos, t = { s with merged := merged, scanPos := pos }
  | .scanStep => ∃ size pos, t = { s with stepSize := size, scanPos := pos }
  | .scanTx => ∃ txq pos, t = { s with txq := txq, scanPos := pos }
  | .scan _ => t.besideScanner = s.besideScanner
  | .rxpush _ _ => ∃ rxq, t = { s with rxq := rxq }
  | .decode => ∃ rxq remote, t = { s with rxq := rxq, remote := remote }
  | .txpop => ∃ txq hold, t = { s with txq := txq, txHold := hold }
  | .txsend => ∃ hold permits log, t = { s with txHold := hold, txPermits := permits, emitted := log }
  | .tx => ∃ txq hold permits log, t = { s with txq := txq, txHold := hold, txPermits := permits, emitted := log }
  | .txdone => ∃ permits, t = { s with txPermits := permits }
  | .framePress .. | .frameRelease .. => ∃ remote, t = { s with remote := remote }
  | _ => ∃ k knob role, t = { s with knobs := s.knobs.set k knob, role := role }

theorem whenReady_of {P : State → Prop} {ready : Bool} {act : State → State} {s : State} (hact : P (act s)) (hheld : P s) :
    P (whenReady ready act s) := by
  rcases whenReady_cases ready act s with ⟨-, h⟩ | ⟨-, h⟩ <;> rwa [h]

theorem scanMicro_of {P : State → Prop} {here after : ScanPos} {act : State → State} {s : State}
    (hact : P { act s with scanPos := after }) (hheld : P s) : P (scanMicro here after act s) :=
  whenReady_of hact hheld

theorem readStep_footprint (rows rows' : List Nibble) (s : State) : Footprint (.scanRead rows') s (readStep rows s) :=
  whenReady_of ⟨_, _, rfl⟩ ⟨_, _, rfl⟩

theorem knobMicro_footprint (k : KnobId) (hk : k ≠ .ms) (here after : ScanPos) (s : State) :
    ∃ knob pos, scanMicro here after (knobStep k) s = { s with knobs := s.knobs.set k knob, scanPos := pos } := by
  apply scanMicro_of (P := fun t => ∃ knob pos, t = { s with knobs := s.knobs.set k knob, scanPos := pos })
  · exact ⟨_, _, by rw [knobStep, turnKnob, if_neg hk]⟩
  · exact ⟨s.knobs.get k, s.scanPos, by simp⟩

theorem roleStep_footprint (s : State) : Footprint .scanRole s (roleStep s) := by
  apply scanMicro_of
  · exact ⟨_, _, _, _, rfl⟩
  · exact ⟨s.knobs.get .ms, s.role, s.roleHint, s.scanPos, rfl⟩

theorem notesStep_footprint (s : State) : Footprint .scanNotes s (notesStep s) :=
  scanMicro_of ⟨_, _, _, _, _, _, rfl⟩ ⟨_, _, _, _, _, _, rfl⟩

theorem mergeStep_footprint (s : State) : Footprint .scanMerge s (mergeStep s) :=
  scanMicro_of ⟨_, _, rfl⟩ ⟨_, _, rfl⟩

theorem stepSizeStep_footprint (s : State) : Footprint .scanStep s (stepSizeStep s) :=
  scanMicro_of ⟨_, _, rfl⟩ ⟨_, _, rfl⟩

theorem txStep_footprint (s : State) : Footprint .scanTx s (txStep s) :=
  whenReady_of ⟨_, _, rfl⟩ ⟨_, _, rfl⟩

/-- A whole cycle of the Scanner writes only what its micro-steps write. -/
theorem scanCycle_besideScanner (rows : List Nibble) (s : State) : (scanCycle rows s).besideScanner = s.besideScanner := by
  have hread (s : State) : (readStep rows s).besideScanner = s.besideScanner := by
    obtain ⟨_, _, h⟩ := readStep_footprint rows rows s
    rw [h]; rfl
  have hrole (s : State) : (roleStep s).besideScanner = s.besideScanner := by
    obtain ⟨_, _, _, _, h⟩ := roleStep_footprint s
    rw [h]; rfl
  have hknob (k : KnobId) (hk : k ≠ .ms) (here after : ScanPos) (s : State) :
      (scanMicro here after (knobStep k) s).besideScanner = s.besideScanner := by
    obtain ⟨_, _, h⟩ := knobMicro_footprint k hk here after s
    rw [h]; rfl
  have hnotes (s : State) : (notesStep s).besideScanner = s.besideScanner := by
    obtain ⟨_, _, _, _, _, _, h⟩ := notesStep_footprint s
    rw [h]; rfl
  have hmerge (s : State) : (mergeStep s).besideScanner = s.besideScanner := by
    obtain ⟨_, _, h⟩ := mergeStep_footprint s
    rw [h]; rfl
  have hstep (s : State) : (stepSizeStep s).besideScanner = s.besideScanner := by
    obtain ⟨_, _, h⟩ := stepSizeStep_footprint s
    rw [h]; rfl
  have htx (s : State) : (txStep s).besideScanner = s.besideScanner := by
    obtain ⟨_, _, h⟩ := txStep_footprint s
    rw [h]; rfl
  simp only [scanCycle, htx, hstep, hmerge, hnotes, hknob _ (by decide : KnobId.oct ≠ .ms),
    hknob _ (by decide : KnobId.wave ≠ .ms), hknob _ (by decide : KnobId.vol ≠ .ms), hrole, hread]

theorem decodeStep_footprint (s : State) : Footprint .decode s (decodeStep s) := by
  unfold decodeStep
  split
  · exact ⟨_, _, rfl⟩
  · rw [receiveFrame_eq]
    exact ⟨_, _, rfl⟩

theorem txpopStep_footprint (s : State) : Footprint .txpop s (txpopStep s) := by
  unfold txpopStep
  split <;> exact ⟨_, _, rfl⟩

theorem txsendStep_footprint (s : State) : Footprint .txsend s (txsendStep s) := by
  unfold txsendStep
  split <;> exact ⟨_, _, _, rfl⟩

theorem tx_footprint (s : State) : Footprint .tx s (txsendStep (txpopStep s)) := by
  obtain ⟨txq, hold, hpop⟩ := txpopStep_footprint s
  rw [hpop]
  obtain ⟨hold', permits, log, hsend⟩ := txsendStep_footprint { s with txq := txq, txHold := hold }
  exact ⟨txq, hold', permits, log, hsend⟩

theorem Footprint.of_next {i : Instr} {s t u : State} (hu : Footprint i s u)
    (h : Host.Outcome.next (φ := Fault) (ρ := Refusal) u = .next t) : Footprint i s t :=
  Host.Outcome.next.inj h ▸ hu

/-- Every operation writes its own registers and no others. -/
theorem exec_footprint {i : Instr} {s t : State} (h : exec i s = .next t) : Footprint i s t := by
  cases i with
  | reset => exact .of_next (i := .reset) rfl h
  | sampleSaw => exact .of_next (i := .sampleSaw) ⟨_, _, rfl⟩ h
  | sampleSine => exact .of_next (i := .sampleSine) ⟨_, _, rfl⟩ h
  | sampleN n => exact .of_next (i := .sampleN n) ⟨_, _, sampleTimes_frame n s⟩ h
  | scanRead rows => exact .of_next (readStep_footprint rows rows s) h
  | scanRole => exact .of_next (roleStep_footprint s) h
  | scanK0 => exact .of_next (i := .scanK0) (knobMicro_footprint .vol (by decide) .k0 .k1 s) h
  | scanK1 => exact .of_next (i := .scanK1) (knobMicro_footprint .wave (by decide) .k1 .k2 s) h
  | scanK2 => exact .of_next (i := .scanK2) (knobMicro_footprint .oct (by decide) .k2 .notes s) h
  | scanNotes => exact .of_next (notesStep_footprint s) h
  | scanMerge => exact .of_next (mergeStep_footprint s) h
  | scanStep => exact .of_next (stepSizeStep_footprint s) h
  | scanTx => exact .of_next (txStep_footprint s) h
  | scan rows => exact .of_next (i := .scan rows) (scanCycle_besideScanner rows s) h
  | rxpush id f => exact .of_next (i := .rxpush id f) ⟨_, rfl⟩ h
  | decode => exact .of_next (decodeStep_footprint s) h
  | txpop => exact .of_next (txpopStep_footprint s) h
  | txsend => exact .of_next (txsendStep_footprint s) h
  | tx => exact .of_next (tx_footprint s) h
  | txdone => exact .of_next (i := .txdone) ⟨_, rfl⟩ h
  | framePress o k lo hi p5 p6 p7 => exact ⟨_, (Host.Outcome.next.inj h).symm.trans (receiveFrame_eq _ s)⟩
  | frameRelease o k lo hi p5 p6 p7 => exact ⟨_, (Host.Outcome.next.inj h).symm.trans (receiveFrame_eq _ s)⟩
  | _ => exact ⟨_, _, _, (Host.Outcome.next.inj h).symm.trans (turnKnob_frame _ _ _ s)⟩

/-- Settles O53: each operation of a line but `RESET` and `SCAN` has a footprint that keeps the registers it does not own. -/
theorem scannerRegistersHaveTheirWriters : Obligations.ScannerRegistersHaveTheirWriters := by
  intro i s t digits hline h hreset hscan
  have hfoot := exec_footprint h
  cases i with
  | reset => exact absurd rfl hreset
  | scan rows => exact absurd rfl (hscan rows)
  | scanRole =>
    obtain ⟨_, _, _, _, rfl⟩ := hfoot
    simp [State.knob, PerKnob.get_set]
  | scanK0 | scanK1 | scanK2 =>
    obtain ⟨_, _, rfl⟩ := hfoot
    simp [State.knob, PerKnob.get_set]
  | scanNotes =>
    obtain ⟨_, _, _, _, _, _, rfl⟩ := hfoot
    simp [State.knob]
  | tx =>
    obtain ⟨_, _, _, _, rfl⟩ := hfoot
    simp [State.knob]
  | txsend =>
    obtain ⟨_, _, _, rfl⟩ := hfoot
    simp [State.knob]
  | sampleSaw | sampleSine | sampleN | scanRead | scanMerge | scanStep | scanTx | decode | txpop =>
    obtain ⟨_, _, rfl⟩ := hfoot
    simp [State.knob]
  | rxpush | txdone =>
    obtain ⟨_, rfl⟩ := hfoot
    simp [State.knob]
  | _ => cases hline

/-- Settles O54: the same footprints, that of `SCAN` keeping everything beside the Scanner and that of `RESET` the parameters,
the output and the input. -/
theorem otherRegistersHaveTheirWriters : Obligations.OtherRegistersHaveTheirWriters := by
  intro i s t digits hline h
  have hfoot := exec_footprint h
  cases i with
  | reset =>
    obtain rfl := hfoot
    simp
  | scan rows =>
    simp only [Footprint, State.besideScanner, Prod.mk.injEq] at hfoot
    obtain ⟨hcfg, hphase, hdac, hremote, hhold, hpermits, hrxq, hpitch, hlut, hlog, htrace⟩ := hfoot
    simp [hcfg, hphase, hdac, hremote, hhold, hpermits, hrxq, hpitch, hlut, hlog, htrace]
  | scanRole | tx =>
    obtain ⟨_, _, _, _, rfl⟩ := hfoot
    simp
  | scanNotes =>
    obtain ⟨_, _, _, _, _, _, rfl⟩ := hfoot
    simp
  | txsend =>
    obtain ⟨_, _, _, rfl⟩ := hfoot
    simp
  | sampleSaw | sampleSine | sampleN | scanRead | scanK0 | scanK1 | scanK2 | scanMerge | scanStep | scanTx | decode | txpop =>
    obtain ⟨_, _, rfl⟩ := hfoot
    simp
  | rxpush | txdone =>
    obtain ⟨_, rfl⟩ := hfoot
    simp
  | _ => cases hline

/-! ### Reset, the scan tick and the outputs -/

/-- Settles O6: the tick is `scanTick` of the state with the entry taken, which acts at IDLE and is held elsewhere. -/
theorem scanTickStartsACycleOnlyAtIdle : Obligations.ScanTickStartsACycleOnlyAtIdle := by
  intro s rest htrace
  have hstep : step s = .next (scanTick { s with trace := rest }) := by simp only [step, htrace]
  rw [hstep]
  exact ⟨fun hidle => by simp [scanTick, whenReady, hidle], fun hpos => by simp [scanTick, whenReady, hpos]⟩

/-- Settles O13. -/
theorem resetGivesTheResetTable : Obligations.ResetGivesTheResetTable := by
  intro s
  refine ⟨_, rfl, fun k => ?_, ?_⟩
  · rw [afterReset_knob]
    exact ⟨rfl, rfl⟩
  · simp

theorem roleMismatch_iff (s : State) : s.roleMismatch = true ↔ ¬(s.role = .master ↔ s.roleHint = true) := by
  unfold State.roleMismatch
  cases s.role <;> cases s.roleHint <;> decide

/-- Settles O52: each port is its register, and `SCAN.READ` at READ writes `rows` and its position only. -/
theorem outputsShowTheRegisters : Obligations.OutputsShowTheRegisters := by
  intro s
  refine ⟨roleMismatch_iff s, rfl, rfl, rfl, rfl, rfl, rfl, rfl, rfl, rfl, rfl, fun rows _ hpos => ?_⟩
  have hread : readStep rows s = { s with rows := rows, scanPos := .role } := by simp [readStep, whenReady, hpos]
  exact ⟨_, rfl, by rw [hread]; rfl⟩

/-! ### The invariant at reset (10_state.md R24, R46) -/

theorem pitchDefault_bound : ∀ i : Note, Config.pitchDefault[i].toNat < 2 ^ 28 := by decide

theorem lutDefault_nonneg : ∀ i : Fin 128, 0 ≤ Config.lutDefault[i].toInt := by decide

theorem initial_valid : Config.initial.Valid where
  pitchBound := pitchDefault_bound
  lutNonneg := lutDefault_nonneg
  lutZero := rfl
  keyRows := by decide
  bitsInRows := by decide
  bitsDistinct := by decide
  idFits := Config.busIdChoice.isLt
  txqRoom := Nat.le_add_left _ _
  rxqRoom := Nat.le_add_left _ _
  slots := Nat.le_add_left _ _
  resetInRange := by intro k; cases k <;> decide
  slaveReset := rfl

/-- With every contact released, read or not (entry 12), every key is. -/
theorem keyMask_replicate (n : Nat) : keyMask (List.replicate n 0xF) = 0xFFF := by
  have hrow (r : Nat) : rowWord (List.replicate n 0xF) r = 0xF := by
    by_cases h : r < n <;> simp [rowWord, List.getD, h]
  simp only [keyMask, hrow]
  decide

theorem afterReset_knobValue (c : Config) (e : List TxEvent) (tr : List TraceEntry) (k : KnobId) :
    (State.afterReset c e tr).knobValue k = (c.knobReset.get k).toInt := by
  rw [State.knobValue, afterReset_knob]

/-- `RESET` reaches the invariant under any valid parameters, over any output so far that is well-formed. -/
theorem afterReset_invariant {c : Config} {e : List TxEvent} (tr : List TraceEntry) (hc : c.Valid)
    (he : ∀ x ∈ e, x.id = c.busId ∧ x.frame.wellFormed = true) : BlockInvariant (State.afterReset c e tr) where
  cfgValid := hc
  knobRange k := by
    rw [afterReset_knobValue]
    exact hc.resetInRange k
  roleKnob := by
    have hms : (c.knobReset.get .ms).toInt = 0 := by
      change c.knobReset.ms.toInt = 0
      rw [hc.slaveReset]; rfl
    simp [afterReset_knobValue, hms]
  slaveVolume h := by simp [pastK0] at h
  slaveMerged _ _ := rfl
  rowCount := List.length_replicate
  notesOfPrev := by simp [notesOf]
  prevOfRows _ := (keyMask_replicate c.nRows).symm
  chgIdxRange := Nat.zero_le _
  mOctRange := Nat.zero_le _
  rsOctRange := Nat.zero_le _
  txqRange := Nat.zero_le _
  rxqRange := Nat.zero_le _
  permitRange := le_rfl
  txqFrames := by simp
  heldFrame := by simp
  sentFrames := he
  pitchTable := rfl
  lutTable := rfl

/-- Settles O58. -/
theorem resetSatisfiesTheInvariant : Obligations.ResetSatisfiesTheInvariant :=
  afterReset_invariant [] initial_valid (by simp)

/-! ### Every operation of a trace line keeps the invariant (10_state.md R24) -/

/-- A guarded action has to keep the invariant only where its condition holds. -/
theorem whenReady_invariant {ready : Bool} {act : State → State} {s : State} (hs : BlockInvariant s)
    (hact : ready = true → BlockInvariant (act s)) : BlockInvariant (whenReady ready act s) := by
  rcases whenReady_cases ready act s with ⟨hready, h⟩ | ⟨-, h⟩
  · rw [h]; exact hact hready
  · rwa [h]

theorem scanMicro_invariant {here after : ScanPos} {act : State → State} {s : State} (hs : BlockInvariant s)
    (hact : s.scanPos = here → BlockInvariant { act s with scanPos := after }) :
    BlockInvariant (scanMicro here after act s) :=
  whenReady_invariant hs fun hpos => hact (of_decide_eq_true hpos)

theorem scanTick_invariant {s : State} (hs : BlockInvariant s) : BlockInvariant (scanTick s) :=
  whenReady_invariant hs fun hpos =>
    have hpos : s.scanPos = .idle := of_decide_eq_true hpos
    { hs with
      slaveVolume := fun h => by simp [pastK0] at h
      slaveMerged := fun _ => hs.slaveMerged (by simp [roleMerged, hpos])
      prevOfRows := fun _ => hs.prevOfRows (by simp [rowsNoted, hpos]) }

/-! #### The Scanner -/

theorem readStep_invariant {rows : List Nibble} {s : State} (hrows : rows.length = s.cfg.nRows) (hs : BlockInvariant s) :
    BlockInvariant (readStep rows s) :=
  whenReady_invariant hs fun hpos =>
    have hpos : s.scanPos = .idle ∨ s.scanPos = .read := of_decide_eq_true hpos
    { hs with
      rowCount := hrows
      slaveVolume := fun h => by simp [pastK0] at h
      slaveMerged := fun _ => hs.slaveMerged (by rcases hpos with h | h <;> simp [roleMerged, h])
      prevOfRows := fun h => by simp [rowsNoted] at h }

/-- A knob decoder leaves every accumulator in its range. -/
theorem knobStep_range {s : State} (hs : BlockInvariant s) (k j : KnobId) :
    Config.knobMin j ≤ (knobStep k s).knobValue j ∧ (knobStep k s).knobValue j ≤ Config.knobMax j := by
  by_cases h : j = k
  · subst h
    rw [knobStep, turnKnob_value]
    exact knobPolicy_range _ _ _
  · rw [knobStep, turnKnob_value_of_ne _ _ _ h]
    exact hs.knobRange j

theorem roleStep_invariant {s : State} (hs : BlockInvariant s) : BlockInvariant (roleStep s) :=
  scanMicro_invariant hs fun _ =>
    { hs with
      knobRange := knobStep_range hs .ms
      roleKnob := by
        change (knobStep .ms s).role = .master ↔ (knobStep .ms s).knobValue .ms ≠ 0
        rw [knobStep, turnKnob_role, if_pos rfl]
        exact roleOf_eq_master _
      slaveVolume := fun h => by simp [pastK0] at h
      slaveMerged := fun h => by simp [roleMerged] at h
      prevOfRows := fun h => by simp [rowsNoted] at h }

/-- A knob decoder other than the role knob's keeps the role. -/
theorem knobStep_role {k : KnobId} (hk : k ≠ .ms) (s : State) : (knobStep k s).role = s.role :=
  if_neg hk

/-- The volume knob's decoder silences a slave, and the others leave a silent slave silent. -/
theorem knobStep_slaveVolume {k : KnobId} {s : State} (hrole : s.role = .slave) (hvol : k = .vol ∨ s.knobValue .vol = 0) :
    (knobStep k s).knobValue .vol = 0 := by
  by_cases h : k = .vol
  · subst h
    rw [knobStep, turnKnob_value]
    simp [knobPolicy, hrole]
  · rw [knobStep, turnKnob_value_of_ne _ _ _ (Ne.symm h)]
    exact hvol.resolve_left h

/-- `SCAN.K0` to `SCAN.K2`: the positions after them lie past `SCAN.K0` and before `SCAN.NOTES`. -/
theorem knobMicro_invariant {k : KnobId} {here after : ScanPos} (hk : k ≠ .ms) (hhere : k = .vol ∨ pastK0 here)
    (hnoted : ¬rowsNoted after) (hmerged : ¬roleMerged after) {s : State} (hs : BlockInvariant s) :
    BlockInvariant (scanMicro here after (knobStep k) s) :=
  scanMicro_invariant hs fun hpos =>
    { hs with
      knobRange := knobStep_range hs k
      roleKnob := by
        have hms : (knobStep k s).knobValue .ms = s.knobValue .ms := turnKnob_value_of_ne _ _ _ (Ne.symm hk)
        change (knobStep k s).role = .master ↔ (knobStep k s).knobValue .ms ≠ 0
        rw [knobStep_role hk, hms]
        exact hs.roleKnob
      slaveVolume := fun _ hrole => by
        have hrole : s.role = .slave := (knobStep_role hk s).symm.trans hrole
        exact knobStep_slaveVolume hrole (hhere.imp_right fun h => hs.slaveVolume (hpos ▸ h) hrole)
      slaveMerged := fun h => absurd h hmerged
      prevOfRows := fun h => absurd h hnoted }

theorem scanK0_invariant {s : State} (hs : BlockInvariant s) : BlockInvariant (scanMicro .k0 .k1 (knobStep .vol) s) :=
  knobMicro_invariant (by decide) (.inl rfl) (by simp [rowsNoted]) (by simp [roleMerged]) hs

theorem scanK1_invariant {s : State} (hs : BlockInvariant s) : BlockInvariant (scanMicro .k1 .k2 (knobStep .wave) s) :=
  knobMicro_invariant (by decide) (.inr (by simp [pastK0])) (by simp [rowsNoted]) (by simp [roleMerged]) hs

theorem scanK2_invariant {s : State} (hs : BlockInvariant s) : BlockInvariant (scanMicro .k2 .notes (knobStep .oct) s) :=
  knobMicro_invariant (by decide) (.inr (by simp [pastK0])) (by simp [rowsNoted]) (by simp [roleMerged]) hs

theorem note_nibble_le (i : Note) : (BitVec.ofNat 4 i.val).toNat ≤ 11 := by
  rw [BitVec.toNat_ofNat]
  omega

theorem notesStep_invariant {s : State} (hs : BlockInvariant s) : BlockInvariant (notesStep s) :=
  scanMicro_invariant hs fun hpos =>
    { hs with
      notesOfPrev := rfl
      prevOfRows := fun _ => rfl
      chgIdxRange := by
        dsimp only
        split
        · exact note_nibble_le _
        · exact hs.chgIdxRange
      slaveVolume := fun _ => hs.slaveVolume (by simp [pastK0, hpos])
      slaveMerged := fun h => by simp [roleMerged] at h }

theorem mergeStep_invariant {s : State} (hs : BlockInvariant s) : BlockInvariant (mergeStep s) :=
  scanMicro_invariant hs fun hpos =>
    { hs with
      slaveMerged := fun _ (hrole : s.role = .slave) => by simp only [hrole]
      mOctRange := by
        cases h : s.role with
        | master => simpa only [h] using hs.rsOctRange
        | slave => simpa only [h] using hs.mOctRange
      slaveVolume := fun _ => hs.slaveVolume (by simp [pastK0, hpos])
      prevOfRows := fun _ => hs.prevOfRows (by simp [rowsNoted, hpos]) }

theorem stepSizeStep_invariant {s : State} (hs : BlockInvariant s) : BlockInvariant (stepSizeStep s) := by
  refine scanMicro_invariant hs fun hpos => ?_
  have hany (size : Word32) : BlockInvariant { s with stepSize := size, scanPos := .tx } :=
    { hs with
      slaveVolume := fun _ => hs.slaveVolume (by simp [pastK0, hpos])
      slaveMerged := fun _ => hs.slaveMerged (by simp [roleMerged, hpos])
      prevOfRows := fun _ => hs.prevOfRows (by simp [rowsNoted, hpos]) }
  exact hany _

/-- "Every frame `buildFrame` makes is well-formed" (42_bus_codec.md R172) for an octave and a key index in range. -/
theorem buildFrame_wellFormed (keys : KeyMask) {octave : Nat} {idx : Nibble} (pressed : Bool) (ho : octave ≤ 8)
    (hi : idx.toNat ≤ 11) : (buildFrame keys octave idx pressed).wellFormed = true := by
  have hlow := (keys.extractLsb' 0 6).isLt
  have hhigh := (keys.extractLsb' 6 6).isLt
  rw [wellFormed_iff]
  refine ⟨?_, ?_, ?_, ?_, ?_⟩
  · cases pressed
    · exact .inr rfl
    · exact .inl rfl
  all_goals simp only [buildFrame, BitVec.toNat_ofNat, BitVec.toNat_setWidth]; omega

theorem nextFrame_wellFormed {s : State} (hs : BlockInvariant s) : s.nextFrame.wellFormed = true :=
  buildFrame_wellFormed _ _ (Int.toNat_le.mpr (hs.knobRange .oct).2) hs.chgIdxRange

theorem txStep_invariant {s : State} (hs : BlockInvariant s) : BlockInvariant (txStep s) :=
  whenReady_invariant hs fun hready => by
    simp only [Bool.and_eq_true, Bool.or_eq_true, Bool.not_eq_true', decide_eq_true_eq] at hready
    obtain ⟨hpos, hroom⟩ := hready
    exact
      { hs with
        txqRange := by
          cases hsend : s.mustSend with
          | false => simpa [hsend] using hs.txqRange
          | true => simpa [hsend] using hroom
        txqFrames := by
          cases hsend : s.mustSend with
          | false => simpa [hsend] using hs.txqFrames
          | true =>
            intro f hf
            simp only [if_true, List.mem_append, List.mem_singleton] at hf
            rcases hf with hf | rfl
            · exact hs.txqFrames f hf
            · exact nextFrame_wellFormed hs
        slaveVolume := fun h => by simp [pastK0] at h
        slaveMerged := fun _ => hs.slaveMerged (by simp [roleMerged, hpos])
        prevOfRows := fun _ => hs.prevOfRows (by simp [rowsNoted, hpos]) }

theorem scanCycle_invariant {rows : List Nibble} {s : State} (hrows : rows.length = s.cfg.nRows) (hs : BlockInvariant s) :
    BlockInvariant (scanCycle rows s) := by
  have hread := readStep_invariant hrows hs
  have hknobs := scanK2_invariant (scanK1_invariant (scanK0_invariant (roleStep_invariant hread)))
  exact txStep_invariant (stepSizeStep_invariant (mergeStep_invariant (notesStep_invariant hknobs)))

/-! #### The Sampler and the bus -/

theorem sampleTimes_invariant (n : Nat) {s : State} (hs : BlockInvariant s) : BlockInvariant (sampleTimes n s) := by
  rw [sampleTimes_frame]
  exact { hs with }

theorem rxpush_invariant (id : Nat) (f : Frame) {s : State} (hs : BlockInvariant s) :
    BlockInvariant
      { s with rxq := if id = s.cfg.busId ∧ s.rxq.length < s.cfg.rxqDepth then s.rxq ++ [f] else s.rxq } :=
  { hs with
    rxqRange := by
      dsimp only
      split
      · next h => simpa using h.2
      · exact hs.rxqRange }

theorem decodeFrame_octave {f : Frame} (hf : f.wellFormed = true) : (decodeFrame f).rsOct.toNat ≤ 8 := by
  obtain ⟨-, hoct, -⟩ := (wellFormed_iff f).mp hf
  simp only [decodeFrame, BitVec.toNat_setWidth]
  omega

theorem receiveFrame_invariant (f : Frame) {s : State} (hs : BlockInvariant s) : BlockInvariant (receiveFrame f s) := by
  unfold receiveFrame
  split
  · next hf => exact { hs with rsOctRange := decodeFrame_octave hf }
  · exact hs

theorem decodeStep_invariant {s : State} (hs : BlockInvariant s) : BlockInvariant (decodeStep s) := by
  unfold decodeStep
  split
  · exact hs
  · next f rest hrxq =>
    have hlen : rest.length + 1 ≤ s.cfg.rxqDepth := by simpa [hrxq] using hs.rxqRange
    exact receiveFrame_invariant f { hs with rxqRange := Nat.le_of_succ_le hlen }

theorem txpopStep_invariant {s : State} (hs : BlockInvariant s) : BlockInvariant (txpopStep s) := by
  unfold txpopStep
  split
  · next f rest _ htxq =>
    have hlen : rest.length + 1 ≤ s.cfg.txqDepth := by simpa [htxq] using hs.txqRange
    have hframes : ∀ g ∈ f :: rest, g.wellFormed = true := htxq ▸ hs.txqFrames
    exact
      { hs with
        txqRange := Nat.le_of_succ_le hlen
        txqFrames := fun g hg => hframes g (List.mem_cons_of_mem f hg)
        heldFrame := fun g hg => hframes g (Option.mem_some.mp hg ▸ List.mem_cons_self) }
  · exact hs
  · exact hs

theorem txsendStep_invariant {s : State} (hs : BlockInvariant s) : BlockInvariant (txsendStep s) := by
  unfold txsendStep
  split
  · next f n hhold hpermits =>
    have hpermit : n + 1 ≤ s.cfg.txSlots := by simpa [hpermits] using hs.permitRange
    exact
      { hs with
        permitRange := Nat.le_of_succ_le hpermit
        heldFrame := by simp
        sentFrames := by
          intro x hx
          rcases List.mem_append.mp hx with hx | hx
          · exact hs.sentFrames x hx
          · obtain rfl := List.mem_singleton.mp hx
            exact ⟨rfl, hs.heldFrame f hhold⟩ }
  · exact hs
  · exact hs

theorem txdone_invariant {s : State} (hs : BlockInvariant s) :
    BlockInvariant { s with txPermits := if s.txPermits < s.cfg.txSlots then s.txPermits + 1 else s.txPermits } :=
  { hs with
    permitRange := by
      dsimp only
      split
      · assumption
      · exact hs.permitRange }

/-! #### The step -/

theorem BlockInvariant.of_next {s t : State} (hs : BlockInvariant s)
    (h : Host.Outcome.next (φ := Fault) (ρ := Refusal) s = .next t) : BlockInvariant t :=
  Host.Outcome.next.inj h ▸ hs

/-- Every operation that a trace line can name keeps the invariant. The QDEC rows, which turn a knob out of the Scanner's
order, are no lines (entry 11). -/
theorem exec_invariant {i : Instr} {s t : State} (hline : i.OnLine s.cfg) (hs : BlockInvariant s) (h : exec i s = .next t) :
    BlockInvariant t := by
  obtain ⟨hwf, digits, hdigits⟩ := hline
  cases i with
  | reset => exact (afterReset_invariant s.trace hs.cfgValid hs.sentFrames).of_next h
  | sampleSaw => exact BlockInvariant.of_next (s := sawStep s) { hs with } h
  | sampleSine => exact BlockInvariant.of_next (s := sineStep s) { hs with } h
  | sampleN n => exact (sampleTimes_invariant n hs).of_next h
  | scanRead rows => exact (readStep_invariant (of_decide_eq_true hwf) hs).of_next h
  | scanRole => exact (roleStep_invariant hs).of_next h
  | scanK0 => exact (scanK0_invariant hs).of_next h
  | scanK1 => exact (scanK1_invariant hs).of_next h
  | scanK2 => exact (scanK2_invariant hs).of_next h
  | scanNotes => exact (notesStep_invariant hs).of_next h
  | scanMerge => exact (mergeStep_invariant hs).of_next h
  | scanStep => exact (stepSizeStep_invariant hs).of_next h
  | scanTx => exact (txStep_invariant hs).of_next h
  | scan rows => exact (scanCycle_invariant (of_decide_eq_true hwf) hs).of_next h
  | rxpush id f => exact (rxpush_invariant id f hs).of_next h
  | decode => exact (decodeStep_invariant hs).of_next h
  | txpop => exact (txpopStep_invariant hs).of_next h
  | txsend => exact (txsendStep_invariant hs).of_next h
  | tx => exact (txsendStep_invariant (txpopStep_invariant hs)).of_next h
  | txdone => exact (txdone_invariant hs).of_next h
  | _ => cases hdigits

/-- Settles O59: with the head of the trace taken, which is no part of the invariant, the step is a tick, an operation of a
line, or a hold. -/
theorem everyStepKeepsTheInvariant : Obligations.EveryStepKeepsTheInvariant := by
  intro s t hs h
  have htaken (rest : List TraceEntry) : BlockInvariant { s with trace := rest } := { hs with }
  unfold step at h
  split at h
  · exact hs.of_next h
  · exact (scanTick_invariant (htaken _)).of_next h
  · next digits rest _ =>
    split at h
    · next hop => exact exec_invariant (s := { s with trace := rest }) (lineOp_onLine hop) (htaken rest) h
    · exact (htaken rest).of_next h

end Sys2Proof.Machine
end

section
/-! PROOFS. The family of the memory (20_memory.md): the step runs the line at the head of the trace (R60), and frames pass each
queue in order (R81). -/

namespace Sys2Proof.Machine

/-- Settles O5. -/
theorem stepRunsTheDecodedLine : Obligations.StepRunsTheDecodedLine := by
  intro s digits rest i htrace hdecode
  have hop : s.lineOp digits = .ok i := hdecode
  simp only [step, htrace, hop]

/-! ### The operations that concern no queue -/

/-- The operations that no trace line names, the FRAME and the QDEC rows, write the knobs, the role or RemoteState only
(entries 8 and 11). -/
theorem exec_eq_of_not_line {i : Instr} {s t : State} (hoff : ∀ digits, encode s.cfg i ≠ .line digits)
    (h : exec i s = .next t) : ∃ knobs role remote, t = { s with knobs := knobs, role := role, remote := remote } := by
  have hfoot := exec_footprint h
  cases i with
  | framePress | frameRelease =>
    obtain ⟨remote, rfl⟩ := hfoot
    exact ⟨s.knobs, s.role, remote, rfl⟩
  | qdec0000 | qdec0001 | qdec0010 | qdec0011 | qdec0100 | qdec0101 | qdec0110 | qdec0111
  | qdec1000 | qdec1001 | qdec1010 | qdec1011 | qdec1100 | qdec1101 | qdec1110 | qdec1111 =>
    obtain ⟨k, knob, role, rfl⟩ := hfoot
    exact ⟨s.knobs.set k knob, role, s.remote, rfl⟩
  | _ => exact absurd rfl (hoff _)

/-- `rxq` is written by `RXPUSH` and `DECODE` only (10_state.md R40, R47). -/
theorem exec_rxq {i : Instr} {s t : State} (h : exec i s = .next t) (hreset : i ≠ .reset) (hdecode : i ≠ .decode)
    (hrxpush : ∀ id f, i ≠ .rxpush id f) : t.rxq = s.rxq := by
  by_cases hline : ∃ digits, encode s.cfg i = .line digits
  · obtain ⟨digits, hdigits⟩ := hline
    obtain ⟨-, -, -, hkept⟩ := otherRegistersHaveTheirWriters i s t digits hdigits h
    obtain ⟨-, -, hrxq, -⟩ := hkept hreset
    exact hrxq hdecode hrxpush
  · obtain ⟨_, _, _, rfl⟩ := exec_eq_of_not_line (not_exists.mp hline) h
    rfl

/-- The frames on their way out are touched by `SCAN.TX`, `TXPOP` and `TXSEND` only, alone or in `SCAN` or `TX`
(10_state.md R37, R38, R47). -/
theorem exec_outbound {i : Instr} {s t : State} (h : exec i s = .next t) (hreset : i ≠ .reset) (hscanTx : i ≠ .scanTx)
    (hscan : ∀ rows, i ≠ .scan rows) (htxpop : i ≠ .txpop) (htxsend : i ≠ .txsend) (htx : i ≠ .tx) :
    outbound t = outbound s := by
  by_cases hline : ∃ digits, encode s.cfg i = .line digits
  · obtain ⟨digits, hdigits⟩ := hline
    obtain ⟨-, -, -, hkept⟩ := otherRegistersHaveTheirWriters i s t digits hdigits h
    obtain ⟨-, -, -, htxq, hhold, -, hlog, -, -⟩ := hkept hreset
    simp only [outbound, htxq hscanTx hscan htxpop htx, hhold htxpop htxsend htx, hlog htxsend htx]
  · obtain ⟨_, _, _, rfl⟩ := exec_eq_of_not_line (not_exists.mp hline) h
    rfl

/-! ### Outbound frames -/

/-- `TXPOP` moves the oldest queued frame to the end of those that have left `txq`: the sequence is the same. -/
theorem txpopStep_outbound (s : State) : outbound (txpopStep s) = outbound s := by
  unfold txpopStep
  split
  · next hhold htxq => simp [outbound, hhold, htxq]
  · rfl
  · rfl

/-- `TXSEND` moves the held frame to the end of those emitted: the sequence is the same. -/
theorem txsendStep_outbound (s : State) : outbound (txsendStep s) = outbound s := by
  unfold txsendStep
  split
  · next hhold _ => simp [outbound, hhold]
  · rfl
  · rfl

/-- A micro-step whose action leaves the frames on their way out does so too, held or not. -/
theorem scanMicro_outbound {here after : ScanPos} {act : State → State} {s : State} (hact : outbound (act s) = outbound s) :
    outbound (scanMicro here after act s) = outbound s :=
  scanMicro_of (P := fun t => outbound t = outbound s) hact rfl

/-- In `SCAN`, what comes before `SCAN.TX` leaves the frames on their way out. -/
theorem scanBeforeTx_outbound (rows : List Nibble) (s : State) :
    outbound (stepSizeStep (mergeStep (notesStep (scanMicro .k2 .notes (knobStep .oct) (scanMicro .k1 .k2 (knobStep .wave)
      (scanMicro .k0 .k1 (knobStep .vol) (roleStep (readStep rows s)))))))) = outbound s := by
  have hread : outbound (readStep rows s) = outbound s := whenReady_of (P := fun t => outbound t = outbound s) rfl rfl
  have hrole (s : State) : outbound (roleStep s) = outbound s := scanMicro_outbound rfl
  have hknob (k : KnobId) (here after : ScanPos) (s : State) :
      outbound (scanMicro here after (knobStep k) s) = outbound s := scanMicro_outbound rfl
  have hnotes (s : State) : outbound (notesStep s) = outbound s := scanMicro_outbound rfl
  have hmerge (s : State) : outbound (mergeStep s) = outbound s := scanMicro_outbound rfl
  have hstep (s : State) : outbound (stepSizeStep s) = outbound s := scanMicro_outbound rfl
  simp only [hstep, hmerge, hnotes, hknob, hrole, hread]

/-- `SCAN.TX` leaves the frames on their way out or appends the one it builds, from registers that it keeps. -/
theorem txStep_outbound (s : State) :
    outbound (txStep s) = outbound s ∨ outbound (txStep s) = outbound s ++ [(txStep s).nextFrame] := by
  apply whenReady_of (P := fun t => outbound t = outbound s ∨ outbound t = outbound s ++ [t.nextFrame])
  · cases hsend : s.mustSend with
    | false => exact .inl (by simp [outbound])
    | true =>
      have hframe (txq : List Frame) : State.nextFrame { s with txq := txq, scanPos := .idle } = s.nextFrame := rfl
      exact .inr (by simp [outbound, hframe])
  · exact .inl rfl

/-- Over the whole cycle the same holds as over its `SCAN.TX`. -/
theorem scanCycle_outbound (rows : List Nibble) (s : State) :
    outbound (scanCycle rows s) = outbound s ∨ outbound (scanCycle rows s) = outbound s ++ [(scanCycle rows s).nextFrame] := by
  rw [← scanBeforeTx_outbound rows s]
  exact txStep_outbound _

/-- Settles O55: `TXPOP` and `TXSEND` move frames along the sequence, `SCAN.TX` appends to it, and no other operation touches
it. -/
theorem outboundFramesKeepTheirOrder : Obligations.OutboundFramesKeepTheirOrder := by
  intro i s t hreset h
  cases i with
  | scanTx =>
    obtain rfl := Host.Outcome.next.inj h
    exact (txStep_outbound s).imp_right fun happend => ⟨.inl rfl, happend⟩
  | scan rows =>
    obtain rfl := Host.Outcome.next.inj h
    exact (scanCycle_outbound rows s).imp_right fun happend => ⟨.inr ⟨rows, rfl⟩, happend⟩
  | txpop =>
    obtain rfl := Host.Outcome.next.inj h
    exact .inl (txpopStep_outbound s)
  | txsend =>
    obtain rfl := Host.Outcome.next.inj h
    exact .inl (txsendStep_outbound s)
  | tx =>
    obtain rfl := Host.Outcome.next.inj h
    exact .inl ((txsendStep_outbound _).trans (txpopStep_outbound s))
  | _ => exact .inl (exec_outbound h hreset nofun nofun nofun nofun nofun)

/-! ### Inbound frames -/

/-- `DECODE` takes the head of `rxq`, whatever it then does with it, and is held where there is none. -/
theorem decodeStep_rxq (s : State) : (decodeStep s).rxq = s.rxq ∨ ∃ f, s.rxq = f :: (decodeStep s).rxq := by
  unfold decodeStep
  split
  · exact .inl rfl
  · next f rest hrxq =>
    rw [receiveFrame_eq]
    exact .inr ⟨f, hrxq⟩

/-- Settles O56: `RXPUSH` appends its frame or discards it, `DECODE` takes the head, and no other operation writes `rxq`. -/
theorem inboundFramesKeepTheirOrder : Obligations.InboundFramesKeepTheirOrder := by
  intro i s t hreset h
  cases i with
  | rxpush id f =>
    obtain rfl := Host.Outcome.next.inj h
    by_cases haccept : id = s.cfg.busId ∧ s.rxq.length < s.cfg.rxqDepth
    · exact .inr (.inl ⟨id, f, rfl, if_pos haccept⟩)
    · exact .inl (if_neg haccept)
  | decode =>
    obtain rfl := Host.Outcome.next.inj h
    exact (decodeStep_rxq s).imp_right fun htaken => .inr ⟨rfl, htaken⟩
  | _ => exact .inl (exec_rxq h hreset nofun nofun)

end Sys2Proof.Machine
end

section
/-! PROOFS. The family of the encoding (30_encoding.md): words and operations there and back (R92 to R107), the pseudo-operations as
their expansions (R94), holds (R93), the quadrature rows (R105, R106) and frames (R102). -/

namespace Sys2Proof

/-! ### From an operation to its word and back (R92 to R106) -/

/-- A line of at least two ones is `SAMPLE*n`, whichever variant is selected. -/
theorem decode_replicate (c : Config) (w : Waveform) {n : Nat} (hn : 2 ≤ n) :
    decode c w (.line (List.replicate n 1)) = .ok (.sampleN n) := by
  obtain ⟨m, rfl⟩ := Nat.exists_eq_add_of_le' hn
  change sampleLine w (List.replicate (m + 1) 1) = _
  simp [sampleLine]

/-- The row words of `SCAN.READ`, and no further digit, are its line. -/
theorem scanReadLine_rows {c : Config} {rows : List Nibble} (h : rows.length = c.nRows) :
    scanReadLine c rows = .ok (.scanRead rows) := by
  simp [scanReadLine, h]

/-- The row words with the numbers of the other micro-steps behind them are the line of `SCAN`. -/
theorem scanReadLine_scanTail {c : Config} {rows : List Nibble} (h : rows.length = c.nRows) :
    scanReadLine c (rows ++ scanTail) = .ok (.scan rows) := by
  simp [scanReadLine, ← h, scanTail]

/-- An identifier of the trace's width and a frame are read back from their digits. -/
theorem rxpushLine_digits {c : Config} {id : Nat} (f : Frame) (h : id < 16 ^ c.busIdDigits) :
    rxpushLine c (digitsOf c.busIdDigits id ++ digitsOfFrame f) = .ok (.rxpush id f) := by
  have hlen := Laws.length_digitsOf c.busIdDigits id
  simp [rxpushLine, List.drop_left' hlen, List.take_left' hlen, frameOfDigits_digitsOfFrame, digitsValue_digitsOf,
    Nat.mod_eq_of_lt h]

/-- A frame made of one of the two types and of fields in range is read as the row of its type, with those fields. -/
theorem decodeFrameWord_frameOf {type : Byte} {o k : Nibble} {lo hi : BitVec 6} {p5 p6 p7 : Byte}
    (htype : type = 80 ∨ type = 82) (ho : o.toNat ≤ 8) (hk : k.toNat ≤ 11) :
    decodeFrameWord (frameOf type o k lo hi p5 p6 p7) =
      .ok (if type = 80 then .framePress o k lo hi p5 p6 p7 else .frameRelease o k lo hi p5 p6 p7) := by
  have hwf := (wellFormed_frameOf type o k lo hi p5 p6 p7).mpr ⟨htype, ho, hk⟩
  rw [decodeFrameWord, if_pos hwf]
  simp only [frameOf, Config.typePress, setWidth_back, setWidth_back_six]
  split <;> rfl

/-- Settles O1: the operations without operands have their numbers; each of the others has its own line or frame. -/
theorem decodeOfEncodeIsTheOperation : Obligations.DecodeOfEncodeIsTheOperation := by
  intro c w i hwf hsel
  cases i with
  | sampleSaw =>
    cases w with
    | saw => rfl
    | sine => cases hsel
  | sampleSine =>
    cases w with
    | saw => cases hsel
    | sine => rfl
  | scanRead rows => exact scanReadLine_rows (by simpa [Instr.wellFormed] using hwf)
  | scan rows => exact scanReadLine_scanTail (by simpa [Instr.wellFormed] using hwf)
  | rxpush id f => exact rxpushLine_digits f (by simpa [Instr.wellFormed] using hwf)
  | sampleN n => exact decode_replicate c w (by simpa [Instr.wellFormed] using hwf)
  | framePress o k lo hi p5 p6 p7 =>
    obtain ⟨ho, hk⟩ : o.toNat ≤ 8 ∧ k.toNat ≤ 11 := by simpa [Instr.wellFormed] using hwf
    exact decodeFrameWord_frameOf (.inl rfl) ho hk
  | frameRelease o k lo hi p5 p6 p7 =>
    obtain ⟨ho, hk⟩ : o.toNat ≤ 8 ∧ k.toNat ≤ 11 := by simpa [Instr.wellFormed] using hwf
    exact decodeFrameWord_frameOf (.inr rfl) ho hk
  | _ => rfl

/-! ### From a word to its operation and back (R92 to R107) -/

/-- `x` is the operation's word and the selector lets it be read as that operation. -/
def Instr.NamedBy (c : Config) (w : Waveform) (x : CodeWord) (i : Instr) : Prop :=
  i.selectedBy w = true ∧ encode c i = x

/-- Only the two variants of `SAMPLE` depend on the selector. -/
theorem selectedBy_of_ne {w : Waveform} {i : Instr} (hsaw : i ≠ .sampleSaw) (hsine : i ≠ .sampleSine) :
    i.selectedBy w = true := by
  cases w <;> simpa [Instr.selectedBy]

theorem bareLine_namedBy {c : Config} {w : Waveform} {op : Nibble} {args : List Nibble} {i j : Instr}
    (hi : i.NamedBy c w (.line [op])) (h : bareLine op i args = .ok j) : j.NamedBy c w (.line (op :: args)) := by
  unfold bareLine at h
  split at h
  · next hargs =>
    cases h
    rwa [hargs]
  · cases h

theorem sampleLine_namedBy {c : Config} {w : Waveform} {args : List Nibble} {i : Instr} (h : sampleLine w args = .ok i) :
    i.NamedBy c w (.line (1 :: args)) := by
  unfold sampleLine at h
  split at h
  · next hargs =>
    subst hargs
    cases w <;> cases h <;> exact ⟨rfl, rfl⟩
  · split at h
    · next hones =>
      cases h
      refine ⟨selectedBy_of_ne nofun nofun, ?_⟩
      rw [encode, List.replicate_succ, ← hones]
    · cases h

theorem scanReadLine_namedBy {c : Config} {w : Waveform} {args : List Nibble} {i : Instr} (h : scanReadLine c args = .ok i) :
    i.NamedBy c w (.line (2 :: args)) := by
  unfold scanReadLine at h
  split at h
  · cases h
    exact ⟨selectedBy_of_ne nofun nofun, rfl⟩
  · split at h
    · next hscan =>
      obtain ⟨-, htail⟩ := hscan
      cases h
      refine ⟨selectedBy_of_ne nofun nofun, ?_⟩
      rw [encode, ← htail, List.take_append_drop]
    · cases h

/-- Sixteen digits are left for the frame, so the identifier has all of its own. -/
theorem rxpushLine_namedBy {c : Config} {w : Waveform} {args : List Nibble} {i : Instr} (h : rxpushLine c args = .ok i) :
    i.NamedBy c w (.line (11 :: args)) := by
  unfold rxpushLine at h
  split at h
  · next f hframe =>
    cases h
    have hdigits := digitsOfFrame_of_frameOfDigits hframe
    have hlen : (args.take c.busIdDigits).length = c.busIdDigits := by
      have := congrArg List.length hdigits
      simp only [Laws.length_digitsOfFrame, List.length_drop] at this
      simp only [List.length_take]
      omega
    have hid := digitsOf_digitsValue (args.take c.busIdDigits)
    rw [hlen] at hid
    refine ⟨selectedBy_of_ne nofun nofun, ?_⟩
    rw [encode, hid, hdigits, List.take_append_drop]
  · cases h

theorem txpopLine_namedBy {c : Config} {w : Waveform} {args : List Nibble} {i : Instr} (h : txpopLine args = .ok i) :
    i.NamedBy c w (.line (13 :: args)) := by
  unfold txpopLine at h
  split at h
  · next hargs =>
    cases h
    subst hargs
    exact ⟨selectedBy_of_ne nofun nofun, rfl⟩
  · split at h
    · next hargs =>
      cases h
      subst hargs
      exact ⟨selectedBy_of_ne nofun nofun, rfl⟩
    · cases h

/-- The operation numbers one by one: the bare ones, and the four with operands. -/
theorem decodeLine_namedBy {c : Config} {w : Waveform} {digits : List Nibble} {i : Instr}
    (h : decodeLine c w digits = .ok i) : i.NamedBy c w (.line digits) := by
  cases digits with
  | nil => cases h
  | cons op args =>
    obtain ⟨⟨n, hn⟩⟩ := op
    match n, hn, h with
    | 1, _, h => exact sampleLine_namedBy h
    | 2, _, h => exact scanReadLine_namedBy h
    | 11, _, h => exact rxpushLine_namedBy h
    | 13, _, h => exact txpopLine_namedBy h
    | 0, _, h | 3, _, h | 4, _, h | 5, _, h | 6, _, h | 7, _, h | 8, _, h | 9, _, h | 10, _, h | 12, _, h | 14, _, h
    | 15, _, h =>
      refine bareLine_namedBy ?_ h
      exact ⟨selectedBy_of_ne nofun nofun, rfl⟩
    | n + 16, hn, _ => omega

/-- A well-formed frame is the frame of its fields: none of its bits is dropped. -/
theorem frameOf_fields {f : Frame} (hwf : f.wellFormed = true) :
    frameOf f.b0 (f.b1.setWidth 4) (f.b2.setWidth 4) (f.b3.setWidth 6) (f.b4.setWidth 6) f.b5 f.b6 f.b7 = f := by
  obtain ⟨-, hoct, hkey, hlow, hhigh⟩ := (wellFormed_iff f).mp hwf
  rw [frameOf, setWidth_nibble (by omega), setWidth_nibble (by omega), setWidth_six (by omega), setWidth_six (by omega)]

/-- A frame that decodes is well-formed (30_encoding.md R102), and the operation is the row of its type with its fields. -/
theorem decodeFrameWord_cases {f : Frame} {i : Instr} (h : decodeFrameWord f = .ok i) :
    f.wellFormed = true ∧
      ((f.b0 = Config.typePress ∧
          i = .framePress (f.b1.setWidth 4) (f.b2.setWidth 4) (f.b3.setWidth 6) (f.b4.setWidth 6) f.b5 f.b6 f.b7) ∨
        (f.b0 = Config.typeRelease ∧
          i = .frameRelease (f.b1.setWidth 4) (f.b2.setWidth 4) (f.b3.setWidth 6) (f.b4.setWidth 6) f.b5 f.b6 f.b7)) := by
  unfold decodeFrameWord at h
  split at h
  · next hwf =>
    obtain ⟨htype, -⟩ := (wellFormed_iff f).mp hwf
    refine ⟨hwf, ?_⟩
    split at h
    · next hpress => exact .inl ⟨hpress, (Except.ok.inj h).symm⟩
    · next hpress => exact .inr ⟨htype.resolve_left hpress, (Except.ok.inj h).symm⟩
  · cases h

theorem decodeFrameWord_namedBy {c : Config} {w : Waveform} {f : Frame} {i : Instr} (h : decodeFrameWord f = .ok i) :
    i.NamedBy c w (.frame f) := by
  obtain ⟨hwf, ⟨htype, rfl⟩ | ⟨htype, rfl⟩⟩ := decodeFrameWord_cases h <;>
  · refine ⟨selectedBy_of_ne nofun nofun, ?_⟩
    rw [encode, ← htype, frameOf_fields hwf]

theorem decodeFrameWord_wellFormed {f : Frame} {i : Instr} (c : Config) (h : decodeFrameWord f = .ok i) :
    i.wellFormed c = true := by
  obtain ⟨hwf, hrow⟩ := decodeFrameWord_cases h
  obtain ⟨-, hoct, hkey, -⟩ := (wellFormed_iff f).mp hwf
  have hrange : (f.b1.setWidth 4).toNat ≤ 8 ∧ (f.b2.setWidth 4).toNat ≤ 11 := by
    simp only [BitVec.toNat_setWidth]
    omega
  obtain ⟨-, rfl⟩ | ⟨-, rfl⟩ := hrow <;> simpa [Instr.wellFormed] using hrange

/-- Every pattern is a row of its own, with no operand but the knob. -/
theorem decodeQdec_wellFormed (c : Config) (w : Waveform) (k : KnobId) (pattern : Nibble) :
    (decodeQdec k pattern).wellFormed c = true ∧ (decodeQdec k pattern).selectedBy w = true := by
  obtain ⟨⟨n, hn⟩⟩ := pattern
  have hn : n < 16 := hn
  interval_cases n <;> exact ⟨rfl, selectedBy_of_ne nofun nofun⟩

/-- Settles O2, format by format. -/
theorem encodeOfDecodeIsTheWord : Obligations.EncodeOfDecodeIsTheWord := by
  intro c w x i h
  cases x with
  | line digits =>
    obtain ⟨hwf, -⟩ := decodeLine_onLine h
    exact ⟨hwf, decodeLine_namedBy h⟩
  | frame f => exact ⟨decodeFrameWord_wellFormed c h, decodeFrameWord_namedBy h⟩
  | qdec k pattern =>
    obtain rfl := Except.ok.inj h
    obtain ⟨hwf, hsel⟩ := decodeQdec_wellFormed c w k pattern
    exact ⟨hwf, hsel, encode_decodeQdec c k pattern⟩

/-- Settles O3: `SCAN.READ` and `RXPUSH` take whatever digits they are given, the other fourteen take none. -/
theorem everyOperationNumberDecodes : Obligations.EveryOperationNumberDecodes := by
  intro c w op args hlen
  obtain ⟨⟨n, hn⟩⟩ := op
  match n, hn, hlen with
  | 2, _, hlen =>
    have hrows : args.length + 1 = 1 + c.nRows := hlen
    exact ⟨.scanRead args, if_pos (by omega)⟩
  | 11, _, hlen =>
    have hdigits : args.length + 1 = 1 + c.busIdDigits + 16 := hlen
    obtain ⟨f, hf⟩ := frameOfDigits_isSome (ds := args.drop c.busIdDigits) (by simp only [List.length_drop]; omega)
    change ∃ i, rxpushLine c args = .ok i
    exact ⟨_, by rw [rxpushLine, hf]⟩
  | 0, _, hlen | 1, _, hlen | 3, _, hlen | 4, _, hlen | 5, _, hlen | 6, _, hlen | 7, _, hlen | 8, _, hlen | 9, _, hlen
  | 10, _, hlen | 12, _, hlen | 13, _, hlen | 14, _, hlen | 15, _, hlen =>
    obtain rfl : args = [] := List.length_eq_zero_iff.mp (Nat.succ.inj hlen)
    cases w <;> exact ⟨_, rfl⟩
  | n + 16, hn, _ => omega

/-- Settles O4. -/
theorem spelledWordsDecode : Obligations.SpelledWordsDecode :=
  ⟨rfl, rfl, rfl, rfl, rfl, rfl, rfl, rfl⟩

end Sys2Proof

namespace Sys2Proof.Machine

/-! ### The step on a line, and the pseudo-operations as their expansions (R93, R94, R208) -/

/-- The line of `SAMPLE` is the variant that the selector names. -/
theorem decode_sample (s : State) :
    decode s.cfg s.wave (.line [1]) = .ok (if s.knobValue .wave = 0 then .sampleSaw else .sampleSine) := by
  unfold State.wave
  split <;> rfl

/-- Settles O7. -/
theorem sampleLineRunsTheSelectedVariant : Obligations.SampleLineRunsTheSelectedVariant := by
  intro s rest htrace
  have hstep := stepRunsTheDecodedLine s [1] rest _ htrace (decode_sample s)
  exact ⟨fun hwave => by rw [hstep, if_pos hwave], fun hwave => by rw [hstep, if_neg hwave]⟩

/-- A run whose first step answers a state goes on from that state. -/
theorem run_succ_of_step {M : Host.Core} {s t : M.State} (n : Nat) (h : M.step s = .next t) : M.run (n + 1) s = M.run n t := by
  simp only [Host.Core.run, h]

/-- A run over a line is the line's operation, which leaves the rest of the trace alone, and then the rest of the run. -/
theorem run_line {i : Instr} {s t : State} {digits : List Nibble} (rest : List TraceEntry) (n : Nat)
    (hdecode : decode s.cfg s.wave (.line digits) = .ok i) (h : exec i s = .next t) :
    Host.Core.run Sys2Proof.core (n + 1) (s.withTrace (.op digits :: rest)) =
      Host.Core.run Sys2Proof.core n (t.withTrace rest) :=
  run_succ_of_step (M := Sys2Proof.core) n
    ((stepRunsTheDecodedLine (s.withTrace _) digits rest i rfl hdecode).trans (exec_trace i h rest))

/-- Settles O11: each of the two lines is its micro-step. -/
theorem txIsTwoSteps : Obligations.TxIsTwoSteps := by
  intro s rest
  refine (run_line (i := .txpop) _ _ rfl rfl).trans ?_
  refine (run_line (i := .txsend) _ _ rfl rfl).trans ?_
  exact (exec_trace .tx (s := s) rfl rest).symm

/-- Settles O10: each of the nine lines is its micro-step, whether it acts or is held. -/
theorem scanIsNineSteps : Obligations.ScanIsNineSteps := by
  intro s rows rest hrows
  have hread : decode s.cfg s.wave (.line (2 :: rows)) = .ok (.scanRead rows) := scanReadLine_rows hrows
  refine (run_line (i := .scanRead rows) _ _ hread rfl).trans ?_
  refine (run_line (i := .scanRole) _ _ rfl rfl).trans ?_
  refine (run_line (i := .scanK0) _ _ rfl rfl).trans ?_
  refine (run_line (i := .scanK1) _ _ rfl rfl).trans ?_
  refine (run_line (i := .scanK2) _ _ rfl rfl).trans ?_
  refine (run_line (i := .scanNotes) _ _ rfl rfl).trans ?_
  refine (run_line (i := .scanMerge) _ _ rfl rfl).trans ?_
  refine (run_line (i := .scanStep) _ _ rfl rfl).trans ?_
  refine (run_line (i := .scanTx) _ _ rfl rfl).trans ?_
  exact (exec_trace (.scan rows) (s := s) rfl rest).symm

/-- The variant that the selector names does what `SAMPLE` does. -/
theorem exec_sample (s : State) :
    exec (if s.knobValue .wave = 0 then .sampleSaw else .sampleSine) s = .next (sampleStep s) := by
  unfold sampleStep State.wave
  split <;> rfl

/-- Settles O12, by induction on the number of samples. -/
theorem sampleNIsNSteps : Obligations.SampleNIsNSteps := by
  intro n s rest
  have hrun : Host.Core.run Sys2Proof.core n (s.withTrace (List.replicate n (.op [1]) ++ rest)) =
      .next ((sampleTimes n s).withTrace rest) := by
    induction n generalizing s with
    | zero => rfl
    | succ n ih => exact (run_line _ n (decode_sample s) (exec_sample s)).trans (ih (sampleStep s))
  exact hrun.trans (exec_trace (.sampleN n) (s := s) rfl rest).symm

/-! ### `SAMPLE*n` (R94, R205) -/

/-- What one sample adds to the accumulator: the step size for the sawtooth, 1 for the sine (43_synth_engine.md R205). -/
def State.increment (s : State) : Word32 := if s.knobValue .wave = 0 then s.stepSize else 1

theorem sampleStep_phaseAcc (s : State) : (sampleStep s).phaseAcc = s.phaseAcc + s.increment := by
  by_cases hwave : s.knobValue .wave = 0 <;> simp [sampleStep, State.wave, State.increment, hwave, sawStep, sineStep]

theorem sampleStep_increment (s : State) : (sampleStep s).increment = s.increment := by
  rw [sampleStep_frame]
  rfl

theorem sampleTimes_phaseAcc (n : Nat) (s : State) :
    (sampleTimes n s).phaseAcc.toNat = (s.phaseAcc.toNat + n * s.increment.toNat) % 2 ^ 32 := by
  induction n generalizing s with
  | zero => simpa [sampleTimes] using (Nat.mod_eq_of_lt s.phaseAcc.isLt).symm
  | succ n ih =>
    rw [sampleTimes, ih, sampleStep_increment, sampleStep_phaseAcc, BitVec.toNat_add, Nat.mod_add_mod, Nat.succ_mul]
    congr 1
    omega

/-- Settles O24. -/
theorem sampleNResult : Obligations.SampleNResult := by
  intro n s
  have hphase := sampleTimes_phaseAcc n s
  refine ⟨_, rfl, sampleTimes_frame n s, fun hwave => ?_, fun hwave => ?_⟩
  · rwa [State.increment, if_pos hwave] at hphase
  · simpa [State.increment, hwave] using hphase

/-! ### Holds (R93, R238) -/

/-- An operation whose condition fails is held. -/
theorem whenReady_held {ready : Bool} {act : State → State} {s : State} (h : ready = false) : whenReady ready act s = s := by
  rw [h]
  rfl

/-- `DECODE` is held while `rxq` is empty. -/
theorem decodeStep_held {s : State} (h : s.rxq = []) : decodeStep s = s := by
  rw [decodeStep, h]
  rfl

/-- `TXPOP` is held while `txHold` is full or `txq` is empty. -/
theorem txpopStep_held {s : State} (h : s.txHold ≠ none ∨ s.txq = []) : txpopStep s = s := by
  unfold txpopStep
  split
  · next hhold htxq => simp [hhold, htxq] at h
  · rfl
  · rfl

/-- `TXSEND` is held while `txHold` is empty or no permit is free. -/
theorem txsendStep_held {s : State} (h : s.txHold = none ∨ s.txPermits = 0) : txsendStep s = s := by
  unfold txsendStep
  split
  · next hhold hpermits => simp [hhold, hpermits] at h
  · rfl
  · rfl

/-- Settles O9: the operations with a condition are held where it fails, the others have none. -/
theorem heldOperationChangesNothing : Obligations.HeldOperationChangesNothing := by
  intro i s h
  cases i with
  | scanRead | scanTx => exact congrArg Host.Outcome.next (whenReady_held h)
  | scanRole | scanK0 | scanK1 | scanK2 | scanNotes | scanMerge | scanStep =>
    exact congrArg Host.Outcome.next (scanMicro_held (of_decide_eq_false h))
  | decode => exact congrArg Host.Outcome.next (decodeStep_held (by simpa [enabled] using h))
  | txpop =>
    have hheld : s.txHold ≠ none ∨ s.txq = [] := by simpa [enabled, or_iff_not_imp_right] using h
    exact congrArg Host.Outcome.next (txpopStep_held hheld)
  | txsend =>
    have hheld : s.txHold = none ∨ s.txPermits = 0 := by simpa [enabled, or_iff_not_imp_left] using h
    exact congrArg Host.Outcome.next (txsendStep_held hheld)
  | _ => cases h

/-! ### `TX` (R94) -/

/-- Settles O50: the head of `txq` passes through `txHold`. -/
theorem txResult : Obligations.TxResult := by
  intro s f rest hhold htxq hpermit
  have hpop : txpopStep s = { s with txq := rest, txHold := some f } := by simp only [txpopStep, hhold, htxq]
  obtain ⟨n, hn⟩ := Nat.exists_eq_add_of_lt hpermit
  have hsend : txsendStep { s with txq := rest, txHold := some f } =
      { s with
        txq := rest, txHold := none, txPermits := s.txPermits - 1, emitted := s.emitted ++ [⟨s.cfg.busId, f⟩] } := by
    simp [txsendStep, hn]
  change Host.Outcome.next (txsendStep (txpopStep s)) = _
  rw [hpop, hsend, ← hhold]

/-! ### Quadrature rows (R105, R106) -/

/-- Settles O28. -/
theorem quadratureTable : Obligations.QuadratureTable := by
  unfold Obligations.QuadratureTable
  decide

/-- Two bits, one above the other. -/
theorem getLsbD_ofBool_append (b a : Bool) :
    (BitVec.ofBool b ++ BitVec.ofBool a).getLsbD 0 = a ∧ (BitVec.ofBool b ++ BitVec.ofBool a).getLsbD 1 = b := by
  cases a <;> cases b <;> decide

/-- Settles O30. -/
theorem knobCodeIsItsTwoBits : Obligations.KnobCodeIsItsTwoBits :=
  fun _ _ => getLsbD_ofBool_append _ _

/-- What a knob decoder leaves: its knob by the policy with the code remembered, the role by knob 3 alone, all else as it was
(40_knob_decoder.md R123 to R128). -/
theorem turnKnob_result (k : KnobId) (d : Int) (cur : BitVec 2) (s : State) :
    let t := turnKnob k d cur s
    t = { s with knobs := s.knobs.set k (t.knob k), role := t.role } ∧ (t.knob k).prev = cur ∧
      t.knobValue k = (if k = .vol ∧ s.role = .slave then 0
        else max (Config.knobMin k) (min (Config.knobMax k) (s.knobValue k + d))) ∧
      (k ≠ .ms → t.role = s.role) ∧ (k = .ms → (t.role = .master ↔ t.knobValue .ms ≠ 0)) := by
  refine ⟨turnKnob_frame k d cur s, turnKnob_prev k d cur s, ?_, fun hk => ?_, fun hk => ?_⟩
  · rw [turnKnob_value, knobPolicy_eq]
  · rw [turnKnob_role, if_neg hk]
  · subst hk
    rw [turnKnob_role, if_pos rfl, roleOf_eq_master]

/-- Settles O29: each row is the knob decoder on the row's delta and current code. -/
theorem quadratureRowsTurnTheKnob : Obligations.QuadratureRowsTurnTheKnob := by
  intro k s row hrow
  have hexec : exec row.1 s = .next (turnKnob k row.2.1 row.2.2 s) := by
    simp only [List.mem_cons, List.not_mem_nil, or_false] at hrow
    rcases hrow with rfl | rfl | rfl | rfl | rfl | rfl | rfl | rfl | rfl | rfl | rfl | rfl | rfl | rfl | rfl | rfl <;> rfl
  exact ⟨_, hexec, turnKnob_result k row.2.1 row.2.2 s⟩

/-! ### Frames (R102) -/

/-- The two halves of the key mask that a frame carries make it up again (42_bus_codec.md R172). -/
theorem frameKeys_buildFrame (keys : KeyMask) (octave : Nat) (idx : Nibble) (pressed : Bool) :
    frameKeys (buildFrame keys octave idx pressed) = keys := by
  simp only [frameKeys, buildFrame, setWidth_back_six]
  rw [BitVec.extractLsb'_append_extractLsb'_eq_extractLsb' (by decide : 6 = 0 + 6)]
  exact BitVec.extractLsb'_eq_self

/-- Settles O42. -/
theorem frameRoundTrip : Obligations.FrameRoundTrip := by
  intro keys octave idx pressed hoct hidx
  refine ⟨buildFrame_wellFormed keys pressed hoct hidx, ?_, ?_, ?_⟩
  · rw [decodeFrame, frameKeys_buildFrame, notesOf]
  · simp only [decodeFrame, buildFrame, BitVec.toNat_setWidth, BitVec.toNat_ofNat]
    omega
  · cases pressed <;> rfl

/-- The notes of a frame as a number: the high six keys above the low six, complemented at 12 bits (30_encoding.md R99). -/
theorem decodeFrame_notes_toNat {f : Frame} (hlow : f.b3.toNat ≤ 63) (hhigh : f.b4.toNat ≤ 63) :
    (decodeFrame f).rsNotes.toNat = 0xFFF - (f.b4.toNat * 2 ^ 6 + f.b3.toNat) := by
  have hkeys : (frameKeys f).toNat = f.b4.toNat * 2 ^ 6 + f.b3.toNat := by
    rw [frameKeys, BitVec.toNat_append, ← Nat.shiftLeft_add_eq_or_of_lt (BitVec.isLt _), Nat.shiftLeft_eq]
    simp only [BitVec.toNat_setWidth]
    omega
  simp only [decodeFrame, notesOf, BitVec.toNat_not, hkeys]

/-- Where a frame is queued, `DECODE` takes it and does with it what the Decoder does with a frame. -/
theorem exec_decode_cons {s : State} {f : Frame} {rest : List Frame} (h : s.rxq = f :: rest) :
    exec .decode s = .next (receiveFrame f { s with rxq := rest }) := by
  change Host.Outcome.next (decodeStep s) = _
  rw [decodeStep, h]

/-- Settles O44. -/
theorem decodeResult : Obligations.DecodeResult := by
  intro s
  refine ⟨fun hempty => congrArg Host.Outcome.next (decodeStep_held hempty), fun f rest hrxq => ?_⟩
  constructor <;> intro hfields
  · have hreceive : receiveFrame f { s with rxq := rest } = { s with rxq := rest, remote := decodeFrame f } :=
      if_pos ((wellFormed_iff f).mpr hfields)
    obtain ⟨-, hoct, -, hlow, hhigh⟩ := hfields
    refine ⟨_, exec_decode_cons hrxq, ?_⟩
    rw [hreceive]
    refine ⟨rfl, decodeFrame_notes_toNat hlow hhigh, ?_, rfl⟩
    simp only [decodeFrame, BitVec.toNat_setWidth]
    omega
  · have hreceive : receiveFrame f { s with rxq := rest } = { s with rxq := rest } :=
      if_neg fun hwf => hfields ((wellFormed_iff f).mp hwf)
    rw [exec_decode_cons hrxq, hreceive]

/-- What a frame made of a type and fields tells: the complement of its keys, its octave and the tag of its type. -/
theorem decodeFrame_frameOf (type : Byte) (o k : Nibble) (lo hi : BitVec 6) (p5 p6 p7 : Byte) :
    decodeFrame (frameOf type o k lo hi p5 p6 p7) =
      ⟨~~~(hi ++ lo), o, if type = Config.typePress then .pressed else .released⟩ := by
  have hkeys : frameKeys (frameOf type o k lo hi p5 p6 p7) = hi ++ lo := by
    simp only [frameKeys, frameOf, setWidth_back_six]
  have hoct : (frameOf type o k lo hi p5 p6 p7).b1.setWidth 4 = o := setWidth_back o
  rw [decodeFrame, hkeys, hoct]
  rfl

/-- A frame of one of the two types replaces RemoteState where its octave and key index are in range, and changes nothing
elsewhere. -/
theorem receiveFrame_frameOf {type : Byte} (htype : type = 80 ∨ type = 82) (o k : Nibble) (lo hi : BitVec 6)
    (p5 p6 p7 : Byte) (s : State) :
    receiveFrame (frameOf type o k lo hi p5 p6 p7) s =
      if o.toNat ≤ 8 ∧ k.toNat ≤ 11 then
        { s with remote := ⟨~~~(hi ++ lo), o, if type = Config.typePress then .pressed else .released⟩ }
      else s := by
  simp only [receiveFrame, wellFormed_frameOf, htype, true_and, decodeFrame_frameOf]

/-- Settles O45. -/
theorem frameRowsReplaceRemoteState : Obligations.FrameRowsReplaceRemoteState := by
  intro s o k lo hi p5 p6 p7
  have hpress := receiveFrame_frameOf (.inl rfl) o k lo hi p5 p6 p7 s
  have hrelease := receiveFrame_frameOf (.inr rfl) o k lo hi p5 p6 p7 s
  constructor
  · intro hrange
    rw [if_pos hrange] at hpress hrelease
    exact ⟨congrArg Host.Outcome.next hpress, congrArg Host.Outcome.next hrelease⟩
  · intro hrange
    rw [if_neg hrange] at hpress hrelease
    exact ⟨congrArg Host.Outcome.next hpress, congrArg Host.Outcome.next hrelease⟩

/-- A frame that decodes to no row is malformed. -/
theorem decodeFrameWord_error {f : Frame} {e : DecodeError} (h : decodeFrameWord f = .error e) : ¬f.wellFormed = true := by
  intro hwf
  rw [decodeFrameWord, if_pos hwf] at h
  split at h <;> cases h

/-- The row that a frame decodes to is what the Decoder does with it. -/
theorem exec_frameRow {f : Frame} {i : Instr} (h : decodeFrameWord f = .ok i) (s : State) :
    exec i s = .next (receiveFrame f s) := by
  obtain ⟨hwf, ⟨htype, rfl⟩ | ⟨htype, rfl⟩⟩ := decodeFrameWord_cases h <;>
  · have hframe := frameOf_fields hwf
    rw [htype] at hframe
    exact congrArg (fun g => Host.Outcome.next (receiveFrame g s)) hframe

/-- Settles O46. -/
theorem decodeRunsTheFrame : Obligations.DecodeRunsTheFrame := by
  intro s f rest hrxq
  rw [exec_decode_cons hrxq]
  refine ⟨fun i hrow => (exec_frameRow hrow _).symm, fun e herror => ?_⟩
  rw [receiveFrame, if_neg (decodeFrameWord_error herror)]

/-! ### A whole scan cycle (R94, R141) -/

/-- `SCAN.READ` at IDLE or READ. -/
theorem readStep_at {s : State} (rows : List Nibble) (hpos : s.scanPos = .idle ∨ s.scanPos = .read) :
    readStep rows s = { s with rows := rows, scanPos := .role } := by
  simp [readStep, whenReady, hpos]

/-- `SCAN.ROLE` at its position turns knob 3, which the role then follows. -/
theorem roleStep_at {s : State} (hpos : s.scanPos = .role) :
    (∃ knobs role hint, roleStep s = { s with knobs := knobs, role := role, roleHint := hint, scanPos := .k0 }) ∧
      ((roleStep s).role = .master ↔ (roleStep s).knobValue .ms ≠ 0) := by
  rw [roleStep, scanMicro_at hpos]
  refine ⟨⟨_, _, _, rfl⟩, ?_⟩
  change (knobStep .ms s).role = .master ↔ (knobStep .ms s).knobValue .ms ≠ 0
  rw [knobStep, turnKnob_role, if_pos rfl, roleOf_eq_master]

/-- `SCAN.K0` to `SCAN.K2`, each at its position, turn their own knob and keep the role; `SCAN.K0` silences a slave and the others
keep it silent (40_knob_decoder.md R124). -/
theorem knobMicro_at {k : KnobId} (hk : k ≠ .ms) {here after : ScanPos} {s : State} (hpos : s.scanPos = here) :
    (∃ knobs, scanMicro here after (knobStep k) s = { s with knobs := knobs, scanPos := after }) ∧
      (scanMicro here after (knobStep k) s).knobValue .ms = s.knobValue .ms ∧
      (s.role = .slave → k = .vol ∨ s.knobValue .vol = 0 →
        (scanMicro here after (knobStep k) s).knobValue .vol = 0) := by
  rw [scanMicro_at hpos]
  exact ⟨⟨_, by rw [knobStep, turnKnob, if_neg hk]⟩, turnKnob_value_of_ne _ _ _ (Ne.symm hk), knobStep_slaveVolume⟩

/-- `SCAN.ROLE` to `SCAN.K2`: the part of a cycle that turns the knobs. -/
def knobPart (s : State) : State :=
  scanMicro .k2 .notes (knobStep .oct) (scanMicro .k1 .k2 (knobStep .wave) (scanMicro .k0 .k1 (knobStep .vol) (roleStep s)))

/-- After the knobs, the role is that of knob 3 and a slave's volume is 0; nothing but the knobs, the role, its hint and the
position has changed. -/
theorem knobPart_at {s : State} (hpos : s.scanPos = .role) :
    (∃ knobs role hint, knobPart s = { s with knobs := knobs, role := role, roleHint := hint, scanPos := .notes }) ∧
      ((knobPart s).role = .master ↔ (knobPart s).knobValue .ms ≠ 0) ∧
      ((knobPart s).role = .slave → (knobPart s).knobValue .vol = 0) := by
  unfold knobPart
  obtain ⟨⟨knobs, role, hint, hrole⟩, hmaster⟩ := roleStep_at hpos
  obtain ⟨⟨knobs0, hk0⟩, hms0, hvol0⟩ := knobMicro_at (k := .vol) (by decide) (after := .k1) (congrArg State.scanPos hrole)
  obtain ⟨⟨knobs1, hk1⟩, hms1, hvol1⟩ := knobMicro_at (k := .wave) (by decide) (after := .k2) (congrArg State.scanPos hk0)
  obtain ⟨⟨knobs2, hk2⟩, hms2, hvol2⟩ := knobMicro_at (k := .oct) (by decide) (after := .notes) (congrArg State.scanPos hk1)
  refine ⟨⟨knobs2, role, hint, by rw [hk2, hk1, hk0, hrole]⟩, ?_, fun hslave => ?_⟩
  · rw [hms2, hms1, hms0, ← hmaster, hk2, hk1, hk0]
  · rw [hk2, hk1, hk0] at hslave
    refine hvol2 ?_ (.inr (hvol1 ?_ (.inr (hvol0 hslave (.inl rfl)))))
    · rwa [hk1, hk0]
    · rwa [hk0]

/-- `SCAN.NOTES` at its position: the new mask and notes, and whether a key changed (41_key_scanner.md R148). -/
theorem notesStep_at {s : State} (hpos : s.scanPos = .notes) :
    ∃ chg idx pressed,
      notesStep s = { s with
        localNotes := ~~~keyMask s.rows, prevKeys := keyMask s.rows, chg := chg, chgIdx := idx, chgPressed := pressed,
        scanPos := .merge } ∧
      (chg = true ↔ keyMask s.rows ≠ s.prevKeys) := by
  rw [notesStep, scanMicro_at hpos]
  exact ⟨_, _, _, rfl, by simp [changedKeys]⟩

/-- `SCAN.MERGE` at its position (41_key_scanner.md R150). -/
theorem mergeStep_at {s : State} (hpos : s.scanPos = .merge) :
    ∃ merged, mergeStep s = { s with merged := merged, scanPos := .step } ∧
      (s.role = .master → merged = ⟨s.remote.rsNotes, s.remote.rsOct⟩) ∧
      (s.role = .slave → merged = ⟨0, s.merged.mOct⟩) := by
  rw [mergeStep, scanMicro_at hpos]
  exact ⟨_, rfl, fun hrole => by simp only [hrole], fun hrole => by simp only [hrole]⟩

/-- `SCAN.STEP` at its position (41_key_scanner.md R153). -/
theorem stepSizeStep_at {s : State} (hpos : s.scanPos = .step) :
    ∃ size, stepSizeStep s = { s with stepSize := size, scanPos := .tx } ∧
      size.toNat =
        (chordSum s.pitch s.localNotes s.octave + chordSum s.pitch s.merged.mNotes s.merged.mOct.toNat) % 2 ^ 32 := by
  rw [stepSizeStep, scanMicro_at hpos]
  exact ⟨_, rfl, BitVec.toNat_ofNat _ _⟩

/-- `SCAN.TX` at its position: nothing to send, a frame sent, or the hold of a full queue (42_bus_codec.md R176). -/
theorem txStep_at {s : State} (hpos : s.scanPos = .tx) :
    (s.role = .master ∨ s.chg = false → txStep s = { s with scanPos := .idle }) ∧
      (s.role = .slave → s.chg = true → s.txq.length < s.cfg.txqDepth →
        txStep s = { s with txq := s.txq ++ [s.nextFrame], scanPos := .idle }) ∧
      (s.role = .slave → s.chg = true → s.cfg.txqDepth ≤ s.txq.length → txStep s = s) := by
  refine ⟨fun hnone => ?_, fun hrole hchg hroom => ?_, fun hrole hchg hfull => ?_⟩
  · have hsend : s.mustSend = false := by rcases hnone with h | h <;> simp [State.mustSend, h]
    simp [txStep, whenReady, hpos, hsend]
  · have hsend : s.mustSend = true := by simp [State.mustSend, hrole, hchg]
    simp [txStep, whenReady, hpos, hsend, hroom]
  · have hsend : s.mustSend = true := by simp [State.mustSend, hrole, hchg]
    exact whenReady_held (by simp [hsend, hfull])

/-- What the queue and the position are after `SCAN.TX` at its position. -/
theorem txStep_queue {s : State} (hpos : s.scanPos = .tx) :
    (s.role = .master ∨ s.chg = false → (txStep s).txq = s.txq ∧ (txStep s).scanPos = .idle) ∧
      (s.role = .slave → s.chg = true → s.txq.length < s.cfg.txqDepth →
        (txStep s).txq = s.txq ++ [s.nextFrame] ∧ (txStep s).scanPos = .idle) ∧
      (s.role = .slave → s.chg = true → s.cfg.txqDepth ≤ s.txq.length →
        (txStep s).txq = s.txq ∧ (txStep s).scanPos = .tx) := by
  obtain ⟨hnone, hsend, hfull⟩ := txStep_at hpos
  refine ⟨fun h => ?_, fun hrole hchg hroom => ?_, fun hrole hchg hlen => ?_⟩
  · rw [hnone h]
    exact ⟨rfl, rfl⟩
  · rw [hsend hrole hchg hroom]
    exact ⟨rfl, rfl⟩
  · rw [hfull hrole hchg hlen]
    exact ⟨rfl, hpos⟩

/-- Settles O41: the nine micro-steps one after another, each from where the one before it left the Scanner. -/
theorem scanCycleResult : Obligations.ScanCycleResult := by
  intro s rows _ hpos
  have hread := readStep_at rows hpos
  obtain ⟨⟨knobs, role, hint, hknobs⟩, hmaster, hvol⟩ := knobPart_at (congrArg State.scanPos hread)
  obtain ⟨chg, idx, pressed, hnotes, hchg⟩ := notesStep_at (congrArg State.scanPos hknobs)
  obtain ⟨merged, hmerge, hmergeMaster, hmergeSlave⟩ := mergeStep_at (congrArg State.scanPos hnotes)
  obtain ⟨size, hstep, hsize⟩ := stepSizeStep_at (congrArg State.scanPos hmerge)
  obtain ⟨hnone, hsend, hfull⟩ := txStep_queue (congrArg State.scanPos hstep)
  obtain ⟨txq, pos, htx⟩ := txStep_footprint (stepSizeStep (mergeStep (notesStep (knobPart (readStep rows s)))))
  have hcycle : scanCycle rows s = txStep (stepSizeStep (mergeStep (notesStep (knobPart (readStep rows s))))) := rfl
  refine ⟨_, congrArg Host.Outcome.next hcycle, ?_⟩
  clear hcycle
  generalize readStep rows s = s₁ at *
  generalize knobPart s₁ = s₂ at *
  generalize notesStep s₂ = s₃ at *
  generalize mergeStep s₃ = s₄ at *
  generalize stepSizeStep s₄ = s₅ at *
  generalize txStep s₅ = t at *
  subst htx hstep hmerge hnotes hknobs hread
  exact ⟨rfl, rfl, rfl, hmaster, hvol, hchg, hmergeMaster, hmergeSlave, hsize, hnone, hsend, hfull, rfl⟩

end Sys2Proof.Machine
end

section
/-! PROOFS. The family of the knob decoder (40_knob_decoder.md): a micro-step runs the row its pattern selects (R130), every knob
keeps its range (R131), and each knob's policy at its position (R124 to R126). -/

namespace Sys2Proof.Machine

/-! ### Patterns (R106, R130) -/

/-- The four codes of a knob. -/
theorem code_cases : ∀ code : BitVec 2, code = 0b00 ∨ code = 0b01 ∨ code = 0b10 ∨ code = 0b11 := by decide

/-- The row that a pattern selects turns the knob by that pattern's delta. -/
theorem exec_decodeQdec (k : KnobId) (prev cur : BitVec 2) (s : State) :
    exec (decodeQdec k (prev ++ cur)) s = .next (turnKnob k (quadDelta prev cur) cur s) := by
  rcases code_cases prev with rfl | rfl | rfl | rfl <;> rcases code_cases cur with rfl | rfl | rfl | rfl <;> rfl

/-- The row that a knob's remembered and current codes select is the knob's step. -/
theorem exec_pattern (k : KnobId) (s : State) :
    exec (decodeQdec k ((s.knob k).prev ++ s.knobCode k)) s = .next (knobStep k s) :=
  exec_decodeQdec k _ _ s

/-- Settles O31: at its position each micro-step is its knob's step, which is the selected row. -/
theorem knobMicroStepRunsItsPattern : Obligations.KnobMicroStepRunsItsPattern := by
  intro s
  refine ⟨fun hpos => ⟨_, exec_pattern .vol s, ?_⟩, fun hpos => ⟨_, exec_pattern .wave s, ?_⟩,
    fun hpos => ⟨_, exec_pattern .oct s, ?_⟩, fun hpos => ⟨_, exec_pattern .ms s, ?_⟩⟩
  all_goals exact congrArg Host.Outcome.next (scanMicro_at hpos)

/-! ### Every sequence of codes (R131) -/

/-- The pairs that turn a knob. -/
theorem quadDelta_cases (prev cur : BitVec 2) :
    (quadDelta prev cur = -1 ↔ (prev = 0b00 ∧ cur = 0b01) ∨ (prev = 0b11 ∧ cur = 0b10)) ∧
      (quadDelta prev cur = 1 ↔ (prev = 0b01 ∧ cur = 0b00) ∨ (prev = 0b10 ∧ cur = 0b11)) ∧
      (quadDelta prev cur = 0 ∨ quadDelta prev cur = 1 ∨ quadDelta prev cur = -1) := by
  revert prev cur
  decide

/-- A knob decoder leaves its own knob in its clamp range, whatever it held before. -/
theorem turnKnob_range (k : KnobId) (d : Int) (cur : BitVec 2) (s : State) :
    Config.knobMin k ≤ (turnKnob k d cur s).knobValue k ∧ (turnKnob k d cur s).knobValue k ≤ Config.knobMax k := by
  rw [turnKnob_value]
  exact knobPolicy_range _ _ _

/-- Settles O32, by induction on the sequence of codes. -/
theorem codeSequencesKeepTheKnobInRange : Obligations.CodeSequencesKeepTheKnobInRange := by
  refine ⟨quadDelta_cases, fun k codes => ?_⟩
  induction codes with
  | nil => exact fun _ hmin hmax => ⟨hmin, hmax⟩
  | cons c codes ih =>
    intro s _ _
    obtain ⟨hmin, hmax⟩ := turnKnob_range k (quadDelta (s.knob k).prev c) c s
    exact ih _ hmin hmax

/-! ### Each knob's policy at its position (R124 to R126, R147) -/

/-- A knob's micro-step at its position, for the knobs that do not set the role: its knob by the policy with the code remembered,
the next position, all else as it was. -/
theorem knobMicro_result {k : KnobId} (hk : k ≠ .ms) {here : ScanPos} (after : ScanPos) {s : State} (hpos : s.scanPos = here) :
    let t := scanMicro here after (knobStep k) s
    t = { s with knobs := s.knobs.set k (t.knob k), scanPos := after } ∧ (t.knob k).prev = s.knobCode k ∧
      t.knobValue k = (if k = .vol ∧ s.role = .slave then 0
        else max (Config.knobMin k) (min (Config.knobMax k)
          (s.knobValue k + quadDelta (s.knob k).prev (s.knobCode k)))) := by
  intro t
  obtain ⟨hframe, hprev, hvalue, hrole, -⟩ := turnKnob_result k (quadDelta (s.knob k).prev (s.knobCode k)) (s.knobCode k) s
  have ht : t = { knobStep k s with scanPos := after } := scanMicro_at hpos
  rw [ht]
  rw [hrole hk] at hframe
  exact ⟨congrArg (fun u : State => { u with scanPos := after }) hframe, hprev, hvalue⟩

/-- Settles O35: the three instances of one knob's micro-step; only the volume knob asks for the role. -/
theorem knobMicroStepsResult : Obligations.KnobMicroStepsResult := by
  intro s
  refine ⟨fun hpos => ⟨_, rfl, ?_⟩, fun hpos => ⟨_, rfl, ?_⟩, fun hpos => ⟨_, rfl, ?_⟩⟩
  · simpa [Config.knobMin, Config.knobMax] using knobMicro_result (k := .vol) (by decide) .k1 hpos
  · exact knobMicro_result (k := .wave) (by decide) .k2 hpos
  · exact knobMicro_result (k := .oct) (by decide) .notes hpos

end Sys2Proof.Machine
end

section
/-! PROOFS. The family of the key scanner (41_key_scanner.md): the row snapshot and its key mask (R142, R143), the role and the
hint (R146), the notes and the reported change (R145, R148), the merged notes (R150), and the step size from the pitch table
(R151 to R153). -/

namespace Sys2Proof.Machine

/-! ### The pitch shifted by octaves (R151) -/

/-- From octave 4 on, the pitch is shifted left. -/
theorem noteStep_toNat_of_ge (pitch : Vector Word32 12) (i : Note) {o : Nat} (ho : 4 ≤ o) :
    (noteStep pitch i o).toNat = pitch[i].toNat * 2 ^ (o - 4) % 2 ^ 32 := by
  rw [noteStep, Config.refOctave, if_pos ho, BitVec.toNat_shiftLeft, Nat.shiftLeft_eq]

/-- Up to octave 4, the pitch is divided by a power of two and floored; at octave 4 the power is 1. -/
theorem noteStep_toNat_of_le (pitch : Vector Word32 12) (i : Note) {o : Nat} (ho : o ≤ 4) :
    (noteStep pitch i o).toNat = pitch[i].toNat / 2 ^ (4 - o) := by
  obtain hlt | rfl := Nat.lt_or_eq_of_le ho
  · rw [noteStep, Config.refOctave, if_neg (by omega), BitVec.toNat_ushiftRight, Nat.shiftRight_eq_div_pow]
  · rw [noteStep_toNat_of_ge pitch i le_rfl, Nat.sub_self, pow_zero, mul_one, Nat.div_one, Nat.mod_eq_of_lt (BitVec.isLt _)]

/-- Four octaves above octave 4 a pitch grows by less than 4 bits. -/
theorem octaveFactor_le {o : Nat} (ho : o ≤ 8) : 2 ^ (o - 4) ≤ 16 :=
  Nat.pow_le_pow_right (j := 4) two_pos (by omega)

/-- A pitch below 2^28 has room for every octave up to 8: nothing wraps. -/
theorem noteStep_toNat_exact {pitch : Vector Word32 12} {i : Note} {o : Nat} (hpitch : pitch[i].toNat < 2 ^ 28)
    (ho : 4 ≤ o) (hmax : o ≤ 8) : (noteStep pitch i o).toNat = pitch[i].toNat * 2 ^ (o - 4) := by
  rw [noteStep_toNat_of_ge pitch i ho]
  apply Nat.mod_eq_of_lt
  calc pitch[i].toNat * 2 ^ (o - 4)
      ≤ pitch[i].toNat * 16 := Nat.mul_le_mul_left _ (octaveFactor_le hmax)
    _ < 2 ^ 32 := by omega

/-- One octave up, where nothing wraps, doubles. -/
theorem noteStep_succ_of_ge {pitch : Vector Word32 12} {i : Note} {o : Nat} (hpitch : pitch[i].toNat < 2 ^ 28)
    (ho : 4 ≤ o) (hmax : o < 8) : (noteStep pitch i (o + 1)).toNat = 2 * (noteStep pitch i o).toNat := by
  rw [noteStep_toNat_exact hpitch ho hmax.le, noteStep_toNat_exact hpitch (by omega) hmax, Nat.succ_sub ho, pow_succ]
  ring

/-- One octave up, below octave 4, doubles but for the bit that the floor cut off. -/
theorem noteStep_succ_of_lt (pitch : Vector Word32 12) (i : Note) {o : Nat} (ho : o < 4) :
    (noteStep pitch i (o + 1)).toNat = 2 * (noteStep pitch i o).toNat ∨
      (noteStep pitch i (o + 1)).toNat = 2 * (noteStep pitch i o).toNat + 1 := by
  have hhalf : (noteStep pitch i o).toNat = (noteStep pitch i (o + 1)).toNat / 2 := by
    rw [noteStep_toNat_of_le pitch i ho.le, noteStep_toNat_of_le pitch i ho, Nat.div_div_eq_div_mul, ← pow_succ]
    congr 2
    omega
  omega

/-- Settles O26. -/
theorem noteStepShiftsByOctave : Obligations.NoteStepShiftsByOctave := by
  intro pitch i o
  refine ⟨noteStep_toNat_of_ge pitch i, fun ho => noteStep_toNat_of_le pitch i ho.le, fun hpitch hmax => ?_⟩
  exact ⟨fun ho => noteStep_toNat_exact hpitch ho hmax, noteStep_succ_of_ge hpitch, noteStep_succ_of_lt pitch i⟩

/-! ### The sum of the notes (R152) -/

/-- The notes in index order are all the notes, each once. -/
theorem allNotes_eq_finRange : allNotes = List.finRange 12 := by decide

theorem chordSum_eq_sum (pitch : Vector Word32 12) (n : NoteBitmap) (o : Nat) :
    chordSum pitch n o = ∑ i : Note, if n.getLsbD i.val then (noteStep pitch i o).toNat else 0 := by
  rw [chordSum, allNotes_eq_finRange, Fin.sum_univ_def]

/-- More notes do not lower the sum: every note's term is a natural number. -/
theorem chordSum_mono (pitch : Vector Word32 12) {n m : NoteBitmap} (o : Nat)
    (hsub : ∀ i : Note, n.getLsbD i.val = true → m.getLsbD i.val = true) : chordSum pitch n o ≤ chordSum pitch m o := by
  rw [chordSum_eq_sum, chordSum_eq_sum]
  refine Finset.sum_le_sum fun i _ => ?_
  by_cases hn : n.getLsbD i.val = true
  · rw [if_pos hn, if_pos (hsub i hn)]
  · rw [if_neg hn]
    exact Nat.zero_le _

/-- Up to octave 8 a note's step is at most sixteen times its pitch, whether or not the shift wraps. -/
theorem noteStep_le (pitch : Vector Word32 12) (i : Note) {o : Nat} (hmax : o ≤ 8) :
    (noteStep pitch i o).toNat ≤ pitch[i].toNat * 16 := by
  obtain ho | ho := Nat.le_total 4 o
  · rw [noteStep_toNat_of_ge pitch i ho]
    exact (Nat.mod_le _ _).trans (Nat.mul_le_mul_left _ (octaveFactor_le hmax))
  · rw [noteStep_toNat_of_le pitch i ho]
    exact (Nat.div_le_self _ _).trans (Nat.le_mul_of_pos_right _ (by decide))

/-- Twelve notes, each within the bound that the pitch table has. -/
theorem chordSum_le {pitch : Vector Word32 12} (n : NoteBitmap) {o : Nat} (hpitch : ∀ i : Note, pitch[i].toNat < 2 ^ 28)
    (hmax : o ≤ 8) : chordSum pitch n o ≤ 12 * (2 ^ 28 - 1) * 16 := by
  have hterm (i : Note) : (if n.getLsbD i.val then (noteStep pitch i o).toNat else 0) ≤ (2 ^ 28 - 1) * 16 := by
    have hstep := noteStep_le pitch i hmax
    have hbound := hpitch i
    split <;> omega
  calc chordSum pitch n o
      = ∑ i : Note, if n.getLsbD i.val then (noteStep pitch i o).toNat else 0 := chordSum_eq_sum pitch n o
    _ ≤ ∑ _i : Note, (2 ^ 28 - 1) * 16 := Finset.sum_le_sum fun i _ => hterm i
    _ = 12 * (2 ^ 28 - 1) * 16 := by simp

/-- Settles O27. -/
theorem chordSumIsExactMonotoneAndBounded : Obligations.ChordSumIsExactMonotoneAndBounded := by
  intro pitch n o
  refine ⟨chordSum_eq_sum pitch n o, ?_, fun m => chordSum_mono pitch o, fun hpitch hmax => ?_⟩
  · simp [chordSum_eq_sum]
  · exact ⟨chordSum_le n hpitch hmax, by decide⟩

/-! ### The row snapshot (R142, R143) -/

/-- Settles O33. -/
theorem scanReadResult : Obligations.ScanReadResult :=
  fun _ rows _ hpos => congrArg Host.Outcome.next (readStep_at rows hpos)

/-- Settles O36: row by row, each row's four bits lie above those of the rows before it. -/
theorem keyMaskLayout : Obligations.KeyMaskLayout := by
  intro rows r c
  simp only [keyMask, rowWord, BitVec.getLsbD_append]
  match r with
  | 0 => rw [Fin.val_zero, if_pos (by omega), Nat.mul_zero, Nat.zero_add]
  | 1 => rw [Fin.val_one, if_neg (by omega), if_pos (by omega), Nat.mul_one, Nat.add_sub_cancel_left]
  | 2 =>
    rw [Fin.val_two, if_neg (by omega), if_neg (by omega)]
    congr 1
    omega

/-! ### The role and its hint (R146, R127) -/

/-- The hint is read from the row word: a cleared bit is a pressed handshake key. -/
theorem handshake_iff (s : State) :
    s.handshake = true ↔ (s.rows.getD s.cfg.hsRow 0xF).getLsbD s.cfg.hsCol.val = false := by
  rw [State.handshake, contact, rowWord, Bool.not_eq_true']

/-- Settles O34: knob 3's decoder, with the hint set beside it. -/
theorem scanRoleResult : Obligations.ScanRoleResult := by
  intro s hpos
  obtain ⟨hframe, hprev, hvalue, -, hrole⟩ :=
    turnKnob_result .ms (quadDelta (s.knob .ms).prev (s.knobCode .ms)) (s.knobCode .ms) s
  refine ⟨{ knobStep .ms s with roleHint := s.handshake, scanPos := .k0 }, congrArg Host.Outcome.next (scanMicro_at hpos),
    ?_, hprev, hvalue, hrole rfl, handshake_iff s⟩
  exact congrArg (fun u : State => { u with roleHint := s.handshake, scanPos := .k0 }) hframe

/-! ### The notes and the reported change (R145, R148) -/

theorem changedKeys_eq_zero_iff (prev keys : KeyMask) : changedKeys prev keys = 0 ↔ keys = prev :=
  BitVec.xor_eq_zero_iff

theorem changedKeys_getLsbD (prev keys : KeyMask) (i : Nat) :
    (changedKeys prev keys).getLsbD i = (keys.getLsbD i != prev.getLsbD i) :=
  BitVec.getLsbD_xor

/-- The reported key differs between the two masks, and no key after it does. -/
theorem lastChange_changedKeys {prev keys : KeyMask} (h : keys ≠ prev) :
    keys.getLsbD (lastChange (changedKeys prev keys)).val ≠ prev.getLsbD (lastChange (changedKeys prev keys)).val ∧
      ∀ j : Note, lastChange (changedKeys prev keys) < j → keys.getLsbD j.val = prev.getLsbD j.val := by
  obtain ⟨hdiffers, hlast⟩ := lastChange_spec (mt (changedKeys_eq_zero_iff prev keys).mp h)
  simp only [changedKeys_getLsbD, bne_iff_ne, bne_eq_false_iff_eq] at hdiffers hlast
  exact ⟨hdiffers, hlast⟩

/-- A note's index is its 4-bit register's value. -/
theorem note_nibble_toNat (i : Note) : (BitVec.ofNat 4 i.val).toNat = i.val := by
  rw [BitVec.toNat_ofNat]
  omega

/-- Settles O37. -/
theorem scanNotesResult : Obligations.ScanNotesResult := by
  intro s hpos
  refine ⟨_, congrArg Host.Outcome.next (scanMicro_at hpos), rfl, fun hsame => ?_, fun hchange => ?_⟩
  · have hd := (changedKeys_eq_zero_iff s.prevKeys (keyMask s.rows)).mpr hsame
    simp [hd]
  · have hd := mt (changedKeys_eq_zero_iff s.prevKeys (keyMask s.rows)).mp hchange
    obtain ⟨hdiffers, hlast⟩ := lastChange_changedKeys hchange
    refine ⟨decide_eq_true hd, lastChange (changedKeys s.prevKeys (keyMask s.rows)), ?_, hdiffers, hlast, ?_⟩
    · simp only [if_pos hd, note_nibble_toNat]
    · simp only [if_pos hd, Bool.not_eq_true']

/-! ### The merged notes and the step size (R150, R153) -/

/-- Settles O38. -/
theorem scanMergeResult : Obligations.ScanMergeResult := by
  intro s hpos
  obtain ⟨merged, hmerge, hmaster, hslave⟩ := mergeStep_at hpos
  have hexec : exec .scanMerge s = .next { s with merged := merged, scanPos := .step } := congrArg Host.Outcome.next hmerge
  exact ⟨fun hrole => hmaster hrole ▸ hexec, fun hrole => hslave hrole ▸ hexec⟩

/-- Settles O39. -/
theorem scanStepResult : Obligations.ScanStepResult := by
  intro s hpos
  obtain ⟨size, hstep, hsize⟩ := stepSizeStep_at hpos
  exact ⟨{ s with stepSize := size, scanPos := .tx }, congrArg Host.Outcome.next hstep, rfl, hsize⟩

end Sys2Proof.Machine
end

section
/-! PROOFS. The family of the bus codec (42_bus_codec.md): the transmit path (R186 to R188), reception (R179), the frame that
`SCAN.TX` queues (R172, R176) and its way to the partner (R177, R181), and the Scanner that a full `txq` holds (R176). -/

namespace Sys2Proof.Machine

/-! ### The transmit path (R186 to R188) -/

/-- `TXPOP` with `txHold` empty and a frame queued. -/
theorem txpopStep_move {s : State} {f : Frame} {rest : List Frame} (hhold : s.txHold = none) (htxq : s.txq = f :: rest) :
    txpopStep s = { s with txq := rest, txHold := some f } := by
  simp only [txpopStep, hhold, htxq]

/-- Settles O47. -/
theorem txpopResult : Obligations.TxpopResult :=
  fun _ => ⟨fun _ _ hhold htxq => congrArg Host.Outcome.next (txpopStep_move hhold htxq),
    fun hheld => congrArg Host.Outcome.next (txpopStep_held hheld)⟩

/-- `TXSEND` with a frame held and a permit free. -/
theorem txsendStep_emit {s : State} {f : Frame} (hhold : s.txHold = some f) (hpermit : 0 < s.txPermits) :
    txsendStep s =
      { s with txPermits := s.txPermits - 1, emitted := s.emitted ++ [⟨s.cfg.busId, f⟩], txHold := none } := by
  obtain ⟨n, hn⟩ := Nat.exists_eq_add_one.mpr hpermit
  simp only [txsendStep, hhold, hn, Nat.add_sub_cancel]

/-- Settles O48. -/
theorem txsendResult : Obligations.TxsendResult :=
  fun _ => ⟨fun _ hhold hpermit => congrArg Host.Outcome.next (txsendStep_emit hhold hpermit),
    fun hheld => congrArg Host.Outcome.next (txsendStep_held hheld)⟩

/-- Settles O49: the permits are the only register written, and they stop at `TX_SLOTS`. -/
theorem txdoneResult : Obligations.TxdoneResult := by
  intro s
  have hexec : exec .txdone s =
      .next { s with txPermits := if s.txPermits < s.cfg.txSlots then s.txPermits + 1 else s.txPermits } := rfl
  refine ⟨fun hout => ?_, fun hfree => ?_⟩
  · rw [hexec, if_pos hout]
  · rw [hexec, if_neg (Nat.not_lt.mpr hfree)]

/-! ### Reception (R179) -/

/-- Settles O43: `rxq` is the only register written, and a discarded frame leaves it as it is. -/
theorem rxpushResult : Obligations.RxpushResult := by
  intro s id data
  have hexec : exec (.rxpush id data) s =
      .next { s with rxq := if id = s.cfg.busId ∧ s.rxq.length < s.cfg.rxqDepth then s.rxq ++ [data] else s.rxq } := rfl
  refine ⟨fun hid hroom => ?_, fun hdiscard => ?_⟩
  · rw [hexec, if_pos ⟨hid, hroom⟩]
  · have hrefused : ¬(id = s.cfg.busId ∧ s.rxq.length < s.cfg.rxqDepth) := fun ⟨hid, hroom⟩ =>
      hdiscard.elim (fun hne => hne hid) (Nat.not_le.mpr hroom)
    rw [hexec, if_neg hrefused]

/-! ### The frame that `SCAN.TX` queues (R172, R176) -/

/-- A 5-bit accumulator's octave fits a byte. -/
theorem octave_lt (s : State) : s.octave < 2 ^ 4 := by
  have hacc : (s.knob .oct).acc.toInt < 2 ^ 4 := BitVec.toInt_lt
  rw [State.octave, State.knobValue]
  omega

/-- The bytes of a frame (42_bus_codec.md R172): the type of the direction, the octave, the key index, the low and the high six keys
of the mask, and three zero pads. -/
theorem buildFrame_bytes (keys : KeyMask) {octave : Nat} (idx : Nibble) (pressed : Bool) (hoct : octave < 2 ^ 8) :
    let f := buildFrame keys octave idx pressed
    f.b0 = (if pressed then 80 else 82) ∧ f.b1.toNat = octave ∧ f.b2.toNat = idx.toNat ∧
      f.b3.toNat = keys.toNat % 2 ^ 6 ∧ f.b4.toNat = keys.toNat / 2 ^ 6 ∧ f.b5 = 0 ∧ f.b6 = 0 ∧ f.b7 = 0 := by
  have hidx := idx.isLt
  have hkeys := keys.isLt
  refine ⟨rfl, ?_, ?_, ?_, ?_, rfl, rfl, rfl⟩
  · rw [buildFrame, BitVec.toNat_ofNat, Nat.mod_eq_of_lt hoct]
  · rw [buildFrame, BitVec.toNat_setWidth]
    omega
  all_goals
    simp only [buildFrame, BitVec.toNat_setWidth, BitVec.extractLsb'_toNat, Nat.shiftRight_eq_div_pow]
    omega

/-- Settles O40: the three cases of `SCAN.TX` at its position, with the bytes of the frame sent. -/
theorem scanTxResult : Obligations.ScanTxResult := by
  intro s hpos
  obtain ⟨hnone, hsend, hfull⟩ := txStep_at hpos
  refine ⟨fun hquiet => congrArg Host.Outcome.next (hnone hquiet), fun hrole hchg hroom => ?_, fun hrole hchg hlen => ?_⟩
  · exact ⟨s.nextFrame, congrArg Host.Outcome.next (hsend hrole hchg hroom),
      buildFrame_bytes _ _ _ ((octave_lt s).trans (by decide))⟩
  · exact congrArg Host.Outcome.next (hfull hrole hchg hlen.ge)

/-! ### From a slave to its partner (R176, R177, R179, R181) -/

/-- The frame that a board at `SCAN.TX` builds tells its own notes and octave: the snapshot is the one its notes were taken
from (42_bus_codec.md R176, corner case b). -/
theorem decodeFrame_nextFrame {s : State} (hs : BlockInvariant s) (hpos : s.scanPos = .tx) :
    (decodeFrame s.nextFrame).rsNotes = s.localNotes ∧ (decodeFrame s.nextFrame).rsOct.toNat = s.octave := by
  have hoct : s.octave ≤ 8 := Int.toNat_le.mpr (hs.knobRange .oct).2
  obtain ⟨-, hnotes, hoctave, -⟩ := frameRoundTrip (keyMask s.rows) s.octave s.chgIdx s.chgPressed hoct hs.chgIdxRange
  have hkeys : s.prevKeys = keyMask s.rows := hs.prevOfRows (by simp [rowsNoted, hpos])
  refine ⟨?_, hoctave⟩
  calc (decodeFrame s.nextFrame).rsNotes = notesOf (keyMask s.rows) := hnotes
    _ = s.localNotes := by rw [hs.notesOfPrev, hkeys]

/-- A well-formed frame with the block's identifier, pushed into an empty `rxq` and decoded there, becomes RemoteState. -/
theorem rxpush_decode {s : State} {f : Frame} (hf : f.wellFormed = true) (hempty : s.rxq = []) (hdepth : 1 ≤ s.cfg.rxqDepth) :
    exec (.rxpush s.cfg.busId f) s = .next { s with rxq := [f] } ∧
      exec .decode { s with rxq := [f] } = .next { s with rxq := [], remote := decodeFrame f } := by
  constructor
  · have hroom : s.rxq.length < s.cfg.rxqDepth := by rwa [hempty]
    simpa [hempty] using (rxpushResult s s.cfg.busId f).1 rfl hroom
  · rw [exec_decode_cons rfl, receiveFrame, if_pos hf]

/-- Settles O51: the sender queues its next frame, which is well-formed and tells the sender's notes and octave. -/
theorem slaveNotesReachThePartner : Obligations.SlaveNotesReachThePartner := by
  intro a b ha hpos hrole hchg hroom hid hempty hdepth
  obtain ⟨-, hsend, -⟩ := txStep_at hpos
  obtain ⟨hpush, hdecode⟩ := rxpush_decode (nextFrame_wellFormed ha) hempty hdepth
  obtain ⟨hnotes, hoctave⟩ := decodeFrame_nextFrame ha hpos
  exact ⟨a.nextFrame, _, _, _, congrArg Host.Outcome.next (hsend hrole hchg hroom), rfl, hid ▸ hpush, hdecode, rfl, hnotes,
    hoctave⟩

/-! ### The held Scanner (R176, R238, R276) -/

/-- An operation that is not enabled leaves the state it ran in. -/
theorem eq_of_not_enabled {i : Instr} {s t : State} (hoff : enabled i s = false) (h : exec i s = .next t) : t = s :=
  Host.Outcome.next.inj (h.symm.trans (heldOperationChangesNothing i s hoff))

/-- `SCAN` from TX: every micro-step but `SCAN.TX` is held. -/
theorem scanCycle_at_tx (rows : List Nibble) {s : State} (hpos : s.scanPos = .tx) : scanCycle rows s = txStep s := by
  have hread : readStep rows s = s := whenReady_held (by simp [hpos])
  have hmicro {here after : ScanPos} {act : State → State} (hne : here ≠ .tx) : scanMicro here after act s = s :=
    scanMicro_held (by rw [hpos]; exact hne.symm)
  have hrole : roleStep s = s := hmicro (by decide)
  have hnotes : notesStep s = s := hmicro (by decide)
  have hmerge : mergeStep s = s := hmicro (by decide)
  have hstep : stepSizeStep s = s := hmicro (by decide)
  simp only [scanCycle, hread, hrole, hmicro (by decide : ScanPos.k0 ≠ .tx), hmicro (by decide : ScanPos.k1 ≠ .tx),
    hmicro (by decide : ScanPos.k2 ≠ .tx), hnotes, hmerge, hstep]

/-- What a held `SCAN.TX` freezes: the Scanner's position and registers, and the queue it waits for. -/
def State.scannerPart (s : State) :=
  (s.scanPos, s.txq, s.knobs, s.role, s.chg, s.rows, s.localNotes, s.merged, s.stepSize)

/-- Settles O57: the Scanner's own lines are held, and no other line but `TXPOP`, `TX` and `RESET` writes to its part. -/
theorem heldScannerIsFrozen : Obligations.HeldScannerIsFrozen := by
  intro i s t digits hline h hpos hrole hchg hfull htxpop htx hreset
  suffices hkept : t.scannerPart = s.scannerPart by
    simpa only [State.scannerPart, Prod.mk.injEq, hpos] using hkept
  have hfoot := exec_footprint h
  cases i with
  | reset => exact absurd rfl hreset
  | txpop => exact absurd rfl htxpop
  | tx => exact absurd rfl htx
  | scanRead | scanRole | scanK0 | scanK1 | scanK2 | scanNotes | scanMerge | scanStep | scanTx =>
    exact congrArg State.scannerPart (eq_of_not_enabled (by simp [enabled, hpos, hrole, hchg, hfull]) h)
  | scan rows =>
    obtain ⟨-, -, htxHeld⟩ := txStep_at hpos
    have hheld : scanCycle rows s = s := (scanCycle_at_tx rows hpos).trans (htxHeld hrole hchg hfull.ge)
    exact congrArg State.scannerPart ((Host.Outcome.next.inj h).symm.trans hheld)
  | sampleSaw | sampleSine | sampleN | decode =>
    obtain ⟨_, _, rfl⟩ := hfoot
    rfl
  | txsend =>
    obtain ⟨_, _, _, rfl⟩ := hfoot
    rfl
  | rxpush | txdone =>
    obtain ⟨_, rfl⟩ := hfoot
    rfl
  | _ => cases hline

end Sys2Proof.Machine
end

section
/-! PROOFS. The family of the synthesizer engine (43_synth_engine.md): the inputs of a sample (R206), the sawtooth and its output
stage (R210, R212), one voice (R214), the sine and its output stage (R213, R216), and its silences (R215, R217). -/

namespace Sys2Proof.Machine

/-! ### The output stages (R212, R216) -/

/-- A clamp to the byte range stores the clamped value itself: the byte does not wrap. -/
theorem ofInt_clamp_toNat (v : Int) : ((BitVec.ofInt 8 (clamp v 0 255)).toNat : Int) = max 0 (min 255 v) := by
  rw [clamp_eq (by decide), BitVec.toNat_ofInt]
  omega

theorem out8_wraps (a : Int) : ((out8 false a).toNat : Int) = (a + 128) % 256 := by
  rw [out8, if_neg Bool.false_ne_true, Config.dacMid, BitVec.toNat_ofInt]
  omega

theorem out8_clamps (a : Int) : ((out8 true a).toNat : Int) = max 0 (min 255 (a + 128)) := by
  rw [out8, if_pos rfl]
  exact ofInt_clamp_toNat (a + 128)

/-- Within a signed byte there is nothing to wrap and nothing to clamp. -/
theorem out8_agree {a : Int} (hlo : -128 ≤ a) (hhi : a ≤ 127) : out8 true a = out8 false a := by
  apply BitVec.eq_of_toNat_eq
  have hclamp := out8_clamps a
  have hwrap := out8_wraps a
  omega

/-- Settles O21. -/
theorem sineOutputWrapsOrClamps : Obligations.SineOutputWrapsOrClamps :=
  fun a => ⟨out8_wraps a, out8_clamps a, out8_agree⟩

/-! ### The sawtooth (R209, R210, R212) -/

/-- The high 8 bits of the accumulator are its quotient by 2^24. -/
theorem highByte_toNat (p : Word32) : (p.extractLsb' 24 8).toNat = p.toNat / 2 ^ 24 := by
  rw [BitVec.extractLsb'_toNat, Nat.shiftRight_eq_div_pow]
  omega

/-- The attenuated ramp: the high 8 bits, centred and shifted right by `8 - volume` with floor (43_synth_engine.md R210). -/
def sawLevel (p : Word32) (volume : Nat) : Int := (((p.toNat / 2 ^ 24 : Nat) : Int) - 128) / 2 ^ (8 - volume)

theorem sawCode_toNat (p : Word32) (volume : Nat) :
    ((sawCode p volume).toNat : Int) = max 0 (min 255 (sawLevel p volume + 128)) := by
  simp only [sawCode, ofInt_clamp_toNat, highByte_toNat, Int.shiftRight_eq_div_pow, Config.dacMid, Config.sawShiftBase,
    sawLevel, Nat.cast_pow, Nat.cast_ofNat]

/-- A right shift takes no signed byte out of its range. -/
theorem sawLevel_range (p : Word32) (volume : Nat) : -128 ≤ sawLevel p volume ∧ sawLevel p volume ≤ 127 := by
  have hp := p.isLt
  have hd : (0 : Int) < 2 ^ (8 - volume) := by positivity
  constructor
  · refine (Int.le_ediv_iff_mul_le hd).mpr ?_
    omega
  · refine Int.lt_add_one_iff.mp ((Int.ediv_lt_iff_lt_mul hd).mpr ?_)
    omega

/-- The clamp is the identity on the attenuated ramp (43_synth_engine.md R212). -/
theorem sawCode_unclamped (p : Word32) (volume : Nat) : ((sawCode p volume).toNat : Int) = sawLevel p volume + 128 := by
  obtain ⟨hlo, hhi⟩ := sawLevel_range p volume
  rw [sawCode_toNat]
  omega

/-- Volume 0 leaves only the half of the ramp the accumulator is in (43_synth_engine.md R210, corner case c). -/
theorem sawCode_zero_volume (p : Word32) : sawCode p 0 = if p.toNat < 2 ^ 31 then 127 else 128 := by
  have hp := p.isLt
  have hcode := sawCode_unclamped p 0
  rw [sawLevel, Nat.sub_zero] at hcode
  apply BitVec.eq_of_toNat_eq
  split
  · show _ = 127
    omega
  · show _ = 128
    omega

/-- Volume 8 passes the ramp through (43_synth_engine.md R210, corner case d). -/
theorem sawCode_full_volume (p : Word32) : sawCode p 8 = p.extractLsb' 24 8 := by
  have hcode := sawCode_unclamped p 8
  rw [sawLevel, Nat.sub_self] at hcode
  apply BitVec.eq_of_toNat_eq
  rw [highByte_toNat]
  omega

/-- Settles O16. -/
theorem sampleSawResult : Obligations.SampleSawResult := by
  intro s _
  exact ⟨sawStep s, rfl, rfl, BitVec.toNat_add _ _, sawCode_toNat _ _⟩

/-- Settles O17. -/
theorem sawClampNeverActs : Obligations.SawClampNeverActs := by
  intro p volume _ a
  have hrange : -128 ≤ a ∧ a ≤ 127 := sawLevel_range p volume
  exact ⟨by omega, by omega, sawCode_unclamped p volume⟩

/-- Settles O18. -/
theorem sawAtTheEndsOfTheVolume : Obligations.SawAtTheEndsOfTheVolume := by
  intro s
  have hexec : exec .sampleSaw s = .next { s with
      phaseAcc := s.phaseAcc + s.stepSize, dacOut := sawCode (s.phaseAcc + s.stepSize) s.volume } := rfl
  constructor
  · intro hvol
    rw [hexec, hvol, sawCode_zero_volume]
  · intro hvol
    rw [hexec, hvol, sawCode_full_volume]

/-! ### One voice (R214) -/

/-- The index of a phase, bits 30:24, as an entry number of the table. -/
theorem phaseIndex_toNat (theta : Word32) :
    (theta.extractLsb' 24 7).toNat = (Fin.ofNat 128 (theta.toNat / 2 ^ 24)).val := by
  rw [BitVec.extractLsb'_toNat, Nat.shiftRight_eq_div_pow, Fin.val_ofNat]

/-- Settles O19: the model's phase is the product modulo 2^32, its sign bit is set from 2^31 on. -/
theorem voiceLooksTheHalfCycleUp : Obligations.VoiceLooksTheHalfCycleUp := by
  intro lut stp p theta
  have htheta : (stp * p).toNat = theta := BitVec.toNat_mul stp p
  simp only [voice, BitVec.msb_eq_decide, decide_eq_true_eq, phaseIndex_toNat, htheta]
  rfl

/-- At phase 0 every voice is the table's first entry, whatever its increment. -/
theorem voice_phase_zero (lut : Vector Word32 128) (stp : Word32) : voice lut stp 0 = lut[0].toInt := by
  simp [voice]

/-! ### The sine (R213) -/

theorem voiceSum_eq_sum (pitch : Vector Word32 12) (lut : Vector Word32 128) (n : NoteBitmap) (o : Nat) (p : Word32) :
    voiceSum pitch lut n o p = ∑ i : Note, if n.getLsbD i.val then voice lut (noteStep pitch i o) p else 0 := by
  rw [voiceSum, allNotes_eq_finRange, Fin.sum_univ_def]

/-- Settles O20. -/
theorem sampleSineResult : Obligations.SampleSineResult := by
  intro s _
  refine ⟨sineStep s, rfl, rfl, BitVec.toNat_add _ _, ?_⟩
  simp only [sineStep, sineCode, voiceSum_eq_sum, Int.shiftRight_eq_div_pow, Config.sineShiftBase, Nat.cast_pow,
    Nat.cast_ofNat]

/-! ### The silences of the sine (R215, R217) -/

/-- A bitmap none of whose notes sounds adds nothing. -/
theorem voiceSum_eq_zero {pitch : Vector Word32 12} {lut : Vector Word32 128} {n : NoteBitmap} {o : Nat} {p : Word32}
    (hsilent : ∀ i : Note, n.getLsbD i.val = true → voice lut (noteStep pitch i o) p = 0) : voiceSum pitch lut n o p = 0 := by
  rw [voiceSum_eq_sum]
  refine Finset.sum_eq_zero fun i _ => ?_
  split
  · exact hsilent i ‹_›
  · rfl

/-- A zero sum is the middle of the output range at every volume, wrapped or clamped. -/
theorem sineCode_zero (sineSat : Bool) (volume : Nat) : sineCode sineSat 0 volume = 128 := by
  rw [sineCode, Int.zero_shiftRight]
  cases sineSat <;> rfl

/-- A sample whose two sums are zero gives the silence code. -/
theorem exec_sampleSine_silent {s : State}
    (hlocal : voiceSum s.pitch s.lut s.localNotes s.octave (s.phaseAcc + 1) = 0)
    (hremote : voiceSum s.pitch s.lut s.merged.mNotes s.merged.mOct.toNat (s.phaseAcc + 1) = 0) :
    exec .sampleSine s = .next { s with phaseAcc := s.phaseAcc + 1, dacOut := 128 } := by
  have hsine : sineStep s = { s with phaseAcc := s.phaseAcc + 1, dacOut := 128 } := by
    simp only [sineStep, hlocal, hremote, add_zero, sineCode_zero]
  exact congrArg Host.Outcome.next hsine

/-- Settles O22: no note is in either bitmap. -/
theorem sineWithoutNotesIsSilent : Obligations.SineWithoutNotesIsSilent := by
  intro s hlocal hremote
  refine exec_sampleSine_silent (voiceSum_eq_zero fun i hi => ?_) (voiceSum_eq_zero fun i hi => ?_)
  · simp [hlocal] at hi
  · simp [hremote] at hi

/-- Settles O23: the accumulator wraps to 0, where every voice is `LUT[0]`. -/
theorem sineAtPhaseZeroIsSilent : Obligations.SineAtPhaseZeroIsSilent := by
  intro s hphase hlut
  have hwrap : s.phaseAcc + 1 = 0 := by rw [hphase]; rfl
  have hvoice (stp : Word32) : voice s.lut stp (s.phaseAcc + 1) = 0 := by
    rw [hwrap, voice_phase_zero, hlut]
    rfl
  rw [exec_sampleSine_silent (voiceSum_eq_zero fun _ _ => hvoice _) (voiceSum_eq_zero fun _ _ => hvoice _), hwrap]

/-! ### What a sample reads (R206) -/

/-- Two states agree on the inputs of a sample: those R206 lists, the tables and `SINE_SAT`. -/
structure SameSamplerInputs (s s' : State) : Prop where
  wave : s.knobValue .wave = s'.knobValue .wave
  volume : s.volume = s'.volume
  octave : s.octave = s'.octave
  stepSize : s.stepSize = s'.stepSize
  localNotes : s.localNotes = s'.localNotes
  merged : s.merged = s'.merged
  phaseAcc : s.phaseAcc = s'.phaseAcc
  pitch : s.pitch = s'.pitch
  lut : s.lut = s'.lut
  sineSat : s.cfg.sineSat = s'.cfg.sineSat

/-- Two states answer the same sample: the accumulator and the output. -/
def SameSample (t t' : State) : Prop := t.phaseAcc = t'.phaseAcc ∧ t.dacOut = t'.dacOut

section
variable {s s' : State}

theorem SameSamplerInputs.sawStep_congr (h : SameSamplerInputs s s') : SameSample (sawStep s) (sawStep s') := by
  simp only [SameSample, sawStep, h.phaseAcc, h.stepSize, h.volume, and_self]

theorem SameSamplerInputs.sineStep_congr (h : SameSamplerInputs s s') : SameSample (sineStep s) (sineStep s') := by
  simp only [SameSample, sineStep, h.phaseAcc, h.pitch, h.lut, h.localNotes, h.octave, h.merged, h.sineSat, h.volume,
    and_self]

theorem SameSamplerInputs.sampleStep_congr (h : SameSamplerInputs s s') : SameSample (sampleStep s) (sampleStep s') := by
  have hwave : s.wave = s'.wave := by rw [State.wave, State.wave, h.wave]
  unfold sampleStep
  rw [hwave]
  cases s'.wave with
  | saw => exact h.sawStep_congr
  | sine => exact h.sineStep_congr

/-- The next sample finds its inputs equal again: of these a sample writes the accumulator only. -/
theorem SameSamplerInputs.after_sampleStep (h : SameSamplerInputs s s') :
    SameSamplerInputs (sampleStep s) (sampleStep s') := by
  obtain ⟨hphase, -⟩ := h.sampleStep_congr
  rw [sampleStep_frame s, sampleStep_frame s']
  exact { h with phaseAcc := hphase }

/-- The first sample makes the outputs equal, and every later one keeps them so. -/
theorem SameSamplerInputs.sampleTimes_succ_congr (h : SameSamplerInputs s s') (n : Nat) :
    SameSample (sampleTimes (n + 1) s) (sampleTimes (n + 1) s') := by
  induction n generalizing s s' with
  | zero => exact h.sampleStep_congr
  | succ n ih => exact ih h.after_sampleStep

end

/-- Settles O25. -/
theorem samplerReadsOnlyItsInputs : Obligations.SamplerReadsOnlyItsInputs := by
  intro s s' hwave hvolume hoctave hstep hlocal hmerged hphase hpitch hlut hsat i hi
  have h : SameSamplerInputs s s' :=
    ⟨hwave, hvolume, hoctave, hstep, hlocal, hmerged, hphase, hpitch, hlut, hsat⟩
  obtain rfl | rfl | ⟨n, hn, rfl⟩ := hi
  · exact ⟨_, _, rfl, rfl, h.sawStep_congr⟩
  · exact ⟨_, _, rfl, rfl, h.sineStep_congr⟩
  · obtain ⟨m, rfl⟩ := Nat.exists_eq_add_of_le' hn
    exact ⟨_, _, rfl, rfl, h.sampleTimes_succ_congr m⟩

end Sys2Proof.Machine
end

section
/-! PROOFS. The family of the exceptions (60_exceptions.md): the block raises none (R230), and what enables no agent is a hold
(R238). -/

namespace Sys2Proof.Machine

/-- A line that is the word of no operation is a hold on the state with the line taken (R238, entry 16). -/
theorem step_undecodable {s : State} {digits : List Nibble} {rest : List TraceEntry} {why : DecodeError}
    (htrace : s.trace = .op digits :: rest) (hdecode : s.lineOp digits = .error why) :
    step s = .next { s with trace := rest } := by
  simp only [step, htrace, hdecode, hold]

/-- No step stops: with nothing to come every agent waits, a tick is total, and a line is an operation, none of which stops, or
a hold. -/
theorem step_next (s : State) : ∃ t, step s = .next t := by
  cases htrace : s.trace with
  | nil => exact ⟨s, by simp only [step, htrace]⟩
  | cons entry rest =>
    cases entry with
    | scanTick => exact ⟨scanTick { s with trace := rest }, by simp only [step, htrace]⟩
    | op digits =>
      cases hop : s.lineOp digits with
      | error why => exact ⟨_, step_undecodable htrace hop⟩
      | ok i =>
        obtain ⟨t, hexec⟩ := exec_next i { s with trace := rest }
        exact ⟨t, (stepRunsTheDecodedLine s digits rest i htrace hop).trans hexec⟩

/-- On a machine none of whose steps stops, no run stops. -/
theorem run_next {M : Host.Core} (hstep : ∀ s, ∃ t, M.step s = .next t) (n : Nat) (s : M.State) : ∃ t, M.run n s = .next t := by
  induction n generalizing s with
  | zero => exact ⟨s, rfl⟩
  | succ n ih =>
    obtain ⟨t, hnext⟩ := hstep s
    rw [run_succ_of_step n hnext]
    exact ih t

/-- Settles O8. -/
theorem stepNeverFaults : Obligations.StepNeverFaults :=
  ⟨step_next, run_next (M := Sys2Proof.core) step_next, fun _ _ _ _ htrace hdecode => step_undecodable htrace hdecode⟩

end Sys2Proof.Machine
end

section
/-! PROOFS. The family of reset and hazards (70_reset_and_hazards.md): the first sample after `RESET` (R261) and the role after the
first scan cycle (R266, R273). -/

namespace Sys2Proof.Machine

/-! ### The first sample after `RESET` (R261) -/

/-- Settles O14: the reset knobs name the sawtooth and volume 0, which gives 127 while the accumulator is in its lower half. -/
theorem sampleAfterResetGives127 : Obligations.SampleAfterResetGives127 := by
  intro s t hknobs hreset
  obtain rfl : t = State.afterReset s.cfg s.emitted s.trace := exec_footprint hreset
  have hzero (k : KnobId) : (State.afterReset s.cfg s.emitted s.trace).knobValue k = 0 := by
    rw [afterReset_knobValue, hknobs]
    cases k <;> rfl
  have hvolume : (State.afterReset s.cfg s.emitted s.trace).volume = 0 := by rw [State.volume, hzero]; rfl
  obtain ⟨hsilent, -⟩ := sawAtTheEndsOfTheVolume (State.afterReset s.cfg s.emitted s.trace)
  exact ⟨if_pos (hzero .wave), hsilent hvolume⟩

/-! ### The role after the first scan cycle (R266, R273) -/

/-- Both pairs that turn a knob up start from a code other than the reset code. -/
theorem quadDelta_reset_code (cur : BitVec 2) : quadDelta 0b00 cur ≤ 0 := by
  obtain ⟨-, hup, hdelta⟩ := quadDelta_cases 0b00 cur
  have hnotUp : quadDelta 0b00 cur ≠ 1 := fun h => by simpa using hup.mp h
  omega

/-- `SCAN.ROLE` makes no master of a board whose master knob is at 0 with the reset code remembered. -/
theorem roleStep_slave {s : State} (hpos : s.scanPos = .role) (hprev : (s.knob .ms).prev = 0b00) (hacc : s.knobValue .ms = 0) :
    (roleStep s).role = .slave := by
  obtain ⟨t, hexec, -, -, hvalue, hmaster, -⟩ := scanRoleResult s hpos
  obtain rfl : roleStep s = t := Host.Outcome.next.inj hexec
  have hdelta := quadDelta_reset_code (s.knobCode .ms)
  have hzero : (roleStep s).knobValue .ms = 0 := by
    rw [hvalue, hprev, hacc]
    omega
  cases hrole : (roleStep s).role with
  | slave => rfl
  | master => exact absurd hzero (hmaster.mp hrole)

/-- In a scan cycle only `SCAN.ROLE` writes the role. -/
theorem scanCycle_role (rows : List Nibble) (s : State) : (scanCycle rows s).role = (roleStep (readStep rows s)).role := by
  have hmicro {here after : ScanPos} {act : State → State} {s : State} (hact : (act s).role = s.role) :
      (scanMicro here after act s).role = s.role := scanMicro_of (P := fun t => t.role = s.role) hact rfl
  have hknob {k : KnobId} (hk : k ≠ .ms) (here after : ScanPos) (s : State) :
      (scanMicro here after (knobStep k) s).role = s.role := hmicro (knobStep_role hk s)
  have hnotes (s : State) : (notesStep s).role = s.role := hmicro rfl
  have hmerge (s : State) : (mergeStep s).role = s.role := hmicro rfl
  have hstep (s : State) : (stepSizeStep s).role = s.role := hmicro rfl
  have htx (s : State) : (txStep s).role = s.role := whenReady_of (P := fun t => t.role = s.role) rfl rfl
  simp only [scanCycle, htx, hstep, hmerge, hnotes, hknob (by decide : KnobId.oct ≠ .ms),
    hknob (by decide : KnobId.wave ≠ .ms), hknob (by decide : KnobId.vol ≠ .ms)]

/-- Settles O15: the cycle's role is that of its `SCAN.ROLE`, which decodes the master knob against the reset code. -/
theorem firstScanAfterResetIsSlave : Obligations.FirstScanAfterResetIsSlave := by
  intro s t rows hms _ hreset
  obtain rfl : t = State.afterReset s.cfg s.emitted s.trace := exec_footprint hreset
  refine ⟨_, rfl, ?_⟩
  rw [scanCycle_role, readStep_at rows (.inl rfl)]
  exact roleStep_slave rfl rfl (congrArg BitVec.toInt hms)

end Sys2Proof.Machine
end
